-- ==== Sys2Proof/Word.lean ====
section
/-! DEFINITION. Words and bytes of the PHTP OTP engine (R6, R7). -/

namespace Sys2Proof

/-- One byte of a buffer or of a byte string (R7). -/
abbrev Byte := BitVec 8

/-- One 32-bit bus word (R6 BUS_WIDTH, R80). -/
abbrev Word := BitVec 32

end Sys2Proof
end

