-- ==== Sys2Proof/Config.lean ====
section
/-! DEFINITION. What the implementation fixes: the parameters of R6, the constant registers of R33 and R47,
and the OPEN parameter BASE. -/

namespace Sys2Proof.Config

/-- WINDOW_SIZE of R6: the window has offsets 0x000 to 0x3FF. -/
abbrev windowSize : Nat := 0x400

/-- SECRET_MAX_CHARS of R6. -/
abbrev secretMaxChars : Nat := 256

/-- KEY_MAX_BYTES of R6 (256 x 5 / 8). -/
abbrev keyMaxBytes : Nat := 160

/-- DIGEST_MAX_BYTES of R6, the SHA-512 output length. -/
abbrev digestMaxBytes : Nat := 64

/-- CODE_MAX_CHARS of R6, the largest legal digit count. -/
abbrev codeMaxChars : Nat := 8

/-- The ID register (R33): the ASCII letters "PHTP". -/
def idValue : Word := 0x50485450#32

/-- The VERSION register (R33): major 1, minor 0. -/
def versionValue : Word := 0x00010000#32

/-- The PARAMS register (R47): KEY_MAX_BYTES in [31:16], SECRET_MAX_CHARS in [15:0]. -/
def paramsValue : Word := 0x00A00100#32

/-- BASE of R6 and R89, the platform address of offset 0. OPEN: nothing in the model can know its value,
so a statement about it holds for every platform (log 5). -/
opaque base : Nat

end Sys2Proof.Config
end

