-- ==== Sys2Proof/Machine/State.lean ====
section
/-! DEFINITION. The state of the PHTP OTP engine (R51), the agents around it, and the reasons a step could
stop. All of it is plain data. -/

namespace Sys2Proof.Machine

/-- A byte buffer of exactly `n` bytes (R48). The length is part of the data, so a buffer of another
size cannot be written down. -/
structure Buf (n : Nat) where
  bytes : List Byte
  size : bytes.length = n
  deriving DecidableEq, Repr

/-- The buffer that holds 0x00 in every byte. -/
def Buf.zero (n : Nat) : Buf n := ⟨List.replicate n 0#8, List.length_replicate⟩

/-- The three hash algorithms of R181. -/
inductive Alg where
  | sha1
  | sha256
  | sha512
  deriving DecidableEq, Repr

/-- The error names of R290. -/
inductive CommandError where
  /-- Code 1. Raised by DECODE, HMAC, GENERATE, VERIFY. -/
  | invalidLength
  /-- Code 2. Raised by DECODE, and by GENERATE and VERIFY with KSRC = 1. -/
  | invalidCharset
  /-- Code 3. Raised by TRUNC, GENERATE, VERIFY. -/
  | invalidDigits
  /-- Code 4. Raised by HMAC, GENERATE, VERIFY. -/
  | unsupportedAlgorithm
  /-- Code 5. Reserved for host software; the block never writes it (R290, D28). -/
  | expired
  /-- Code 6. Raised by every illegal code. -/
  | illegalCommand
  /-- Code 7. Raised by TRUNC. -/
  | noDigest
  deriving DecidableEq, Repr

/-- The block's registers and buffers: the record of R51, field by field. -/
structure Block where
  /-- CTRL.ALG (R34). -/
  ctrlAlg : BitVec 2
  /-- CTRL.DIGITS (R34). -/
  ctrlDigits : BitVec 4
  /-- CTRL.KSRC (R34): false = RAW, true = BASE32. -/
  ctrlKsrc : Bool
  /-- CTRL.IE (R34). -/
  ctrlIe : Bool
  /-- STATUS.BUSY (R31, R36). -/
  busy : Bool
  /-- PENDING, the code of the command in progress (R31). -/
  pending : BitVec 8
  /-- STATUS.DONE (R36). -/
  done : Bool
  /-- STATUS.ERR (R36). -/
  err : Bool
  /-- STATUS.WBUSY (R36). -/
  wbusy : Bool
  /-- ERROR[3:0] (R37). -/
  error : BitVec 4
  /-- SECRET_LEN (R38). -/
  secretLen : Word
  /-- KEY_LEN (R39). -/
  keyLen : Word
  /-- COUNTER_HI (R40). -/
  counterHi : Word
  /-- COUNTER_LO (R40). -/
  counterLo : Word
  /-- CAND_LEN (R44). -/
  candLen : Word
  /-- DIGEST_LEN (R41). -/
  digestLen : Word
  /-- TRUNC_OFF[3:0] (R42). -/
  truncOff : BitVec 4
  /-- TRUNC_VAL[30:0] (R42). -/
  truncVal : BitVec 31
  /-- CODE_BIN (R42). -/
  codeBin : Word
  /-- CODE_LEN (R43). -/
  codeLen : Word
  /-- VERDICT[1:0] (R45): 0 NONE, 1 VALID, 2 INVALID. -/
  verdict : BitVec 2
  /-- SECRET (R48). -/
  secret : Buf 256
  /-- KEY (R48). -/
  key : Buf 160
  /-- DIGEST (R48). -/
  digest : Buf 64
  /-- CODE_ASCII (R43, R48). -/
  codeAscii : Buf 8
  /-- CAND (R44, R48). -/
  cand : Buf 8
  deriving DecidableEq, Repr

/-- The block right after reset: every value is that of R320. -/
def Block.reset : Block where
  ctrlAlg := 0
  ctrlDigits := 6
  ctrlKsrc := true
  ctrlIe := false
  busy := false
  pending := 0
  done := false
  err := false
  wbusy := false
  error := 0
  secretLen := 0
  keyLen := 0
  counterHi := 0
  counterLo := 0
  candLen := 0
  digestLen := 0
  truncOff := 0
  truncVal := 0
  codeBin := 0
  codeLen := 0
  verdict := 0
  secret := Buf.zero 256
  key := Buf.zero 160
  digest := Buf.zero 64
  codeAscii := Buf.zero 8
  cand := Buf.zero 8

/-- The width of a bus access. Only `word` exists for the block; the others get a bus error (R85, R87). -/
inductive AccessSize where
  | byte
  | half
  | word
  deriving DecidableEq, Repr

/-- A statement of a host program (R110, R111). Addresses are platform addresses (R80). `wait` is the
polling loop of R111; the other pseudo-statements expand to reads and writes (Machine/HostProgram.lean). -/
inductive HostStmt where
  | read (addr : Nat) (size : AccessSize)
  | write (addr : Nat) (size : AccessSize) (value : Word)
  | wait
  deriving DecidableEq, Repr

/-- What the host gets back for a transaction (R81, R82, R85, R321). -/
inductive Response where
  /-- The value a read returns (R81). -/
  | readData (value : Word)
  /-- A write was taken; no write reports a fault (R82). -/
  | writeDone
  /-- The bus error response of R85, with its read data. -/
  | busError (readData : Word)
  /-- The block gave no answer: reset is asserted (R321), or the address is outside the window (R85). -/
  | unanswered
  deriving DecidableEq, Repr

/-- Who takes a step (R30, R321, R336; log 2). -/
inductive Turn where
  /-- The host performs its next statement. -/
  | host
  /-- The engine takes its completion step, if a command is in progress. -/
  | engine
  /-- The platform drives the reset input to this level. -/
  | resetPin (asserted : Bool)
  deriving DecidableEq, Repr

/-- The whole machine: the block, and as plain data the agents that drive it (log 1). -/
structure State where
  /-- The registers and buffers of the block (R51). -/
  block : Block
  /-- The level of the reset input (R321). -/
  resetAsserted : Bool
  /-- The host statements not yet performed, in the total order of R90 (log 15). -/
  program : List HostStmt
  /-- Who moves in the steps to come; where it is empty, the engine moves while BUSY = 1 and the host otherwise. -/
  schedule : List Turn
  /-- The block's answers so far, newest first (R337). -/
  responses : List Response
  deriving DecidableEq, Repr

/-- The machine right after reset is released (R320), with no host statement to perform (R322, log 1). -/
def State.reset : State where
  block := Block.reset
  resetAsserted := false
  program := []
  schedule := []
  responses := []

/-- The state with another block and the agents as they are. -/
def State.withBlock (s : State) (b : Block) : State := { s with block := b }

/-- Reasons to stop. There are none: "The block has nothing that can hang" (R293); an error of a command
is a next state (R292) and a bus error is an answer on the bus (R85). Safe: nothing is stopped (log 10). -/
inductive Fault where
  deriving DecidableEq, Repr

/-- Reasons to give an instruction no meaning. -/
inductive Refusal where
  /-- Raised by `exec` for an instruction that has no meaning yet. No arm raises it. Safe: the machine stops. -/
  | notModelled (mnemonic : String)
  deriving DecidableEq, Repr

end Sys2Proof.Machine
end

