-- ==== Sys2Proof/Machine/Bytes.lean ====
section
/-! DEFINITION. Bit and byte helpers: rotations and big-endian conversion (R7), and the bytes and bus words
of a buffer (R48). -/

namespace Sys2Proof.Machine

/-- `rotr_w(x, n)` of R7, for 0 < n < w. -/
def rotr {w : Nat} (x : BitVec w) (n : Nat) : BitVec w := (x >>> n) ||| (x <<< (w - n))

/-- `rotl_w(x, n) = rotr_w(x, w - n)` of R7, for 0 < n < w. -/
def rotl {w : Nat} (x : BitVec w) (n : Nat) : BitVec w := rotr x (w - n)

/-- `be(n, v)` of R7: the n-byte big-endian encoding of v. -/
def be (n v : Nat) : List Byte :=
  (List.range n).map fun i => BitVec.ofNat 8 (v >>> (8 * (n - 1 - i)))

/-- `int_be(s)` of R7: the integer whose big-endian encoding is s. -/
def intBe (s : List Byte) : Nat := s.foldl (fun acc b => acc * 256 + b.toNat) 0

/-- `s[i..j)` of R7. -/
def slice {α : Type} (s : List α) (i j : Nat) : List α := (s.drop i).take (j - i)

/-- The first `n` bytes of `s` followed by zero bytes: `n` bytes in all. This is the form in which every
command writes a buffer: `BUF[0..m) <- s; BUF[m..n) <- 0x00^(n - m)`. -/
def padTo (n : Nat) (s : List Byte) : List Byte := (s ++ List.replicate (n - s.length) 0#8).take n

theorem length_padTo (n : Nat) (s : List Byte) : (padTo n s).length = n := by
  simp [padTo]; omega

/-- The buffer that holds `s` and then zero bytes. -/
def Buf.ofBytes (n : Nat) (s : List Byte) : Buf n := ⟨padTo n s, length_padTo n s⟩

/-- Byte `i` of a buffer; past its end, 0. -/
def Buf.byte {n : Nat} (b : Buf n) (i : Nat) : Byte := b.bytes.getD i 0#8

/-- The bus word at buffer offset 4k: byte 4k in bits [31:24] down to byte 4k+3 in bits [7:0] (R48). -/
def Buf.word {n : Nat} (b : Buf n) (k : Nat) : Word :=
  b.byte (4 * k) ++ b.byte (4 * k + 1) ++ b.byte (4 * k + 2) ++ b.byte (4 * k + 3)

/-- The four bytes of a bus word, most significant first (R48, R82). -/
def wordBytes (v : Word) : List Byte :=
  [v.extractLsb' 24 8, v.extractLsb' 16 8, v.extractLsb' 8 8, v.extractLsb' 0 8]

/-- A buffer with bytes 4k to 4k+3 set from a bus word (R82). -/
def Buf.setWord {n : Nat} (b : Buf n) (k : Nat) (v : Word) : Buf n :=
  ⟨(((b.bytes.set (4 * k) (v.extractLsb' 24 8)).set (4 * k + 1) (v.extractLsb' 16 8)).set (4 * k + 2)
      (v.extractLsb' 8 8)).set (4 * k + 3) (v.extractLsb' 0 8), by simp [b.size]⟩

end Sys2Proof.Machine
end

