-- ==== Sys2Proof/Machine/Flags.lean ====
section
/-! DEFINITION. The flags and control fields: STATUS and CTRL as words, the W1C bits, and IRQ (R34, R36, R50). -/

namespace Sys2Proof.Machine

/-- One bit as a 1-bit field. -/
def bit (b : Bool) : BitVec 1 := BitVec.ofBool b

/-- STATUS as a bus read returns it (R36): BUSY, DONE, ERR, WBUSY in bits 0 to 3, the rest 0. -/
def statusWord (b : Block) : Word := 0#28 ++ bit b.wbusy ++ bit b.err ++ bit b.done ++ bit b.busy

/-- CTRL as a bus read returns it (R34): ALG, DIGITS, KSRC and IE, reserved bits 0. -/
def ctrlWord (b : Block) : Word :=
  0#22 ++ bit b.ctrlIe ++ bit b.ctrlKsrc ++ b.ctrlDigits ++ 0#2 ++ b.ctrlAlg

/-- A write to CTRL (R82): each field takes its bits, reserved bits are not stored. -/
def writeCtrl (v : Word) (b : Block) : Block :=
  { b with
    ctrlAlg := v.extractLsb' 0 2
    ctrlDigits := v.extractLsb' 4 4
    ctrlKsrc := v.getLsbD 8
    ctrlIe := v.getLsbD 9 }

/-- A write to STATUS (R36, R82): each W1C bit whose written bit is 1 is cleared. This is also how the host
returns from an error (R294). -/
def clearStatus (v : Word) (b : Block) : Block :=
  { b with
    done := b.done && !v.getLsbD 1
    err := b.err && !v.getLsbD 2
    wbusy := b.wbusy && !v.getLsbD 3 }

/-- The interrupt output, a level: `IRQ = CTRL.IE & STATUS.DONE` (R50, R300). -/
def irq (b : Block) : Bool := b.ctrlIe && b.done

end Sys2Proof.Machine
end

