-- ==== Sys2Proof/Machine/Ops.lean ====
section
/-! DEFINITION. The shared operations on the block: issue, completion and raising an error (R46, R292), the
result writes that commands share, and the register map with its bus reads and writes (R32, R81 to R84). -/

namespace Sys2Proof.Machine

/-! ## The command life cycle (R46, R292) -/

/-- The number of an error in ERROR[3:0] (R290). -/
def errorCode : CommandError → BitVec 4
  | .invalidLength => 1
  | .invalidCharset => 2
  | .invalidDigits => 3
  | .unsupportedAlgorithm => 4
  | .expired => 5
  | .illegalCommand => 6
  | .noDigest => 7

/-- Issue of a command (R46): PENDING takes the code, BUSY is set, and DONE, ERR, ERROR and VERDICT are cleared. -/
def issue (code : BitVec 8) (b : Block) : Block :=
  { b with
    pending := code
    busy := true
    done := false
    err := false
    error := 0
    verdict := 0 }

/-- Completion without error (R46). -/
def complete (b : Block) : Block :=
  { b with
    error := 0
    busy := false
    done := true
    err := false }

/-- `raise Error(c)` (R292): exactly ERROR, BUSY, DONE and ERR are written. This is the block's one way of
taking an exception; nothing is saved and control goes nowhere. -/
def raise (e : CommandError) (b : Block) : Block :=
  { b with
    error := errorCode e
    busy := false
    done := true
    err := true }

/-- The completion step of a command whose body answered `r` at block `b`: the body's writes and the
completion in one step, or the error and no other write (R46, R88, R292). -/
def commit (b : Block) (r : Except CommandError Block) : Block :=
  match r with
  | .ok b' => complete b'
  | .error e => raise e b

/-- Runs a command: its body sees the block at issue and its writes commit in this one step (R46). -/
def runCommand (body : Block → Except CommandError Block) (s : State) : Host.Outcome State Fault Refusal :=
  .next (s.withBlock (commit s.block (body s.block)))

/-! ## Result writes that several commands share -/

/-- KEY and KEY_LEN take a decoded key, KEY beyond it is cleared (R134, R261, D36). -/
def writeKey (k : List Byte) (b : Block) : Block :=
  { b with
    key := Buf.ofBytes 160 k
    keyLen := BitVec.ofNat 32 k.length }

/-- DIGEST and DIGEST_LEN take a digest, DIGEST beyond it is cleared (R200, R261, D36). -/
def writeDigest (d : List Byte) (b : Block) : Block :=
  { b with
    digest := Buf.ofBytes 64 d
    digestLen := BitVec.ofNat 32 d.length }

/-! ## The register map (R32) -/

/-- The registers of the window. A buffer word carries its index k: buffer offset 4k. -/
inductive Reg where
  | id
  | version
  | ctrl
  | cmd
  | status
  | error
  | secretLen
  | keyLen
  | counterHi
  | counterLo
  | digestLen
  | truncOff
  | truncVal
  | codeBin
  | codeLen
  | candLen
  | verdict
  | params
  | codeAscii (k : Nat)
  | cand (k : Nat)
  | digest (k : Nat)
  | secret (k : Nat)
  | key (k : Nat)
  | reserved
  deriving DecidableEq, Repr

/-- The register at a word-aligned offset (R32, R84). -/
def regAt (off : Nat) : Reg :=
  if off = 0x000 then .id
  else if off = 0x004 then .version
  else if off = 0x008 then .ctrl
  else if off = 0x00C then .cmd
  else if off = 0x010 then .status
  else if off = 0x014 then .error
  else if off = 0x018 then .secretLen
  else if off = 0x01C then .keyLen
  else if off = 0x020 then .counterHi
  else if off = 0x024 then .counterLo
  else if off = 0x028 then .digestLen
  else if off = 0x02C then .truncOff
  else if off = 0x030 then .truncVal
  else if off = 0x034 then .codeBin
  else if off = 0x038 then .codeLen
  else if off = 0x03C then .candLen
  else if off = 0x040 then .verdict
  else if off = 0x044 then .params
  else if off < 0x050 then .codeAscii ((off - 0x048) / 4)
  else if off < 0x058 then .cand ((off - 0x050) / 4)
  else if off < 0x080 then .reserved
  else if off < 0x0C0 then .digest ((off - 0x080) / 4)
  else if off < 0x100 then .reserved
  else if off < 0x200 then .secret ((off - 0x100) / 4)
  else if off < 0x2A0 then .key ((off - 0x200) / 4)
  else .reserved

/-- The value a register reads (R81). -/
def readReg (b : Block) : Reg → Word
  | .id => Config.idValue
  | .version => Config.versionValue
  | .ctrl => ctrlWord b
  | .cmd => 0
  | .status => statusWord b
  | .error => b.error.setWidth 32
  | .secretLen => b.secretLen
  | .keyLen => b.keyLen
  | .counterHi => b.counterHi
  | .counterLo => b.counterLo
  | .digestLen => b.digestLen
  | .truncOff => b.truncOff.setWidth 32
  | .truncVal => b.truncVal.setWidth 32
  | .codeBin => b.codeBin
  | .codeLen => b.codeLen
  | .candLen => b.candLen
  | .verdict => b.verdict.setWidth 32
  | .params => Config.paramsValue
  | .codeAscii k => b.codeAscii.word k
  | .cand k => b.cand.word k
  | .digest k => b.digest.word k
  | .secret k => b.secret.word k
  | .key k => b.key.word k
  | .reserved => 0

/-- The effect of a write to a register while BUSY = 0 (R82). -/
def writeReg (v : Word) (b : Block) : Reg → Block
  | .id => b
  | .version => b
  | .ctrl => writeCtrl v b
  | .cmd => issue (v.extractLsb' 0 8) b
  | .status => clearStatus v b
  | .error => b
  | .secretLen => { b with secretLen := v }
  | .keyLen => { b with keyLen := v }
  | .counterHi => { b with counterHi := v }
  | .counterLo => { b with counterLo := v }
  | .digestLen => b
  | .truncOff => b
  | .truncVal => b
  | .codeBin => b
  | .codeLen => b
  | .candLen => { b with candLen := v }
  | .verdict => b
  | .params => b
  | .codeAscii _ => b
  | .cand k => { b with cand := b.cand.setWord k v }
  | .digest _ => b
  | .secret k => { b with secret := b.secret.setWord k v }
  | .key k => { b with key := b.key.setWord k v }
  | .reserved => b

/-- `BusRead(off)` at a word-aligned offset (R81). -/
def busRead (b : Block) (off : Nat) : Word := readReg b (regAt off)

/-- A write dropped because BUSY = 1 sets WBUSY (R83). -/
def dropWrite (b : Block) : Block := { b with wbusy := true }

/-- `BusWrite(off, v)` at a word-aligned offset (R82, R83): while BUSY = 1 only STATUS takes a write. -/
def busWrite (off : Nat) (v : Word) (b : Block) : Block :=
  if b.busy then
    if off = 0x010 then clearStatus v b else dropWrite b
  else writeReg v b (regAt off)

end Sys2Proof.Machine
end

