-- ==== Sys2Proof/Machine/Bus.lean ====
section
/-! DEFINITION. The host's side of the bus: which transactions reach the block, what each one answers and
changes, and the host's turn (R80 to R88, R110, R111, R321). -/

namespace Sys2Proof.Machine

/-- The offset of a platform address inside the window [BASE, BASE + 0x400) (R32, R80, R85). -/
def offsetOf (addr : Nat) : Option Nat :=
  if Config.base ≤ addr ∧ addr < Config.base + Config.windowSize then some (addr - Config.base) else none

/-- The platform address of an offset (R80). -/
def addressOf (off : Nat) : Nat := Config.base + off

/-- The access is one the block serves: a whole word at a word-aligned offset (R80, R85;
the order of the checks is log 6). -/
def legalAccess (off : Nat) (size : AccessSize) : Bool := size == .word && off % 4 == 0

/-- What a read answers (R81, R85, R321; logs 7 and 8). -/
def readResponse (addr : Nat) (size : AccessSize) (s : State) : Response :=
  match offsetOf addr with
  | none => .unanswered
  | some off =>
    if s.resetAsserted then .unanswered
    else if legalAccess off size then .readData (busRead s.block off)
    else .busError 0

/-- What a write answers (R82, R85, R321; logs 7 and 8). -/
def writeResponse (addr : Nat) (size : AccessSize) (s : State) : Response :=
  match offsetOf addr with
  | none => .unanswered
  | some off =>
    if s.resetAsserted then .unanswered
    else if legalAccess off size then .writeDone
    else .busError 0

/-- What a write does to the block (R82, R83, R85, R321). -/
def writeEffect (addr : Nat) (size : AccessSize) (v : Word) (s : State) : Block :=
  match offsetOf addr with
  | none => s.block
  | some off =>
    if s.resetAsserted then s.block
    else if legalAccess off size then busWrite off v s.block
    else s.block

/-- A WAIT loop ends with this read of STATUS: it was answered and BUSY is 0 (R111). -/
def waitEnds (r : Response) : Bool :=
  match r with
  | .readData v => !v.getLsbD 0
  | .writeDone => false
  | .busError _ => false
  | .unanswered => false

/-- The host performs one bus transaction: `stmt` is at the head of its program and `rest` follows it.
WAIT reads STATUS once and stays at the head until BUSY is 0 (R111, log 12). -/
def performStmt (stmt : HostStmt) (rest : List HostStmt) (s : State) : State :=
  match stmt with
  | .read addr size =>
    { s with
      program := rest
      responses := readResponse addr size s :: s.responses }
  | .write addr size v =>
    { s with
      block := writeEffect addr size v s
      program := rest
      responses := writeResponse addr size s :: s.responses }
  | .wait =>
    { s with
      program := if waitEnds (readResponse (addressOf 0x010) .word s) then rest else s.program
      responses := readResponse (addressOf 0x010) .word s :: s.responses }

/-- The host's turn: its next statement, or nothing where its program has ended. An idle block keeps every
register (R308). -/
def hostTurn (s : State) : State :=
  match s.program with
  | [] => s
  | stmt :: rest => performStmt stmt rest s

/-- The reset input takes a level (R321). While it is asserted the block holds the values of R320; a command
in progress is abandoned. -/
def resetTurn (asserted : Bool) (s : State) : State :=
  { s with
    block := if asserted then Block.reset else s.block
    resetAsserted := asserted }

end Sys2Proof.Machine
end

