-- ==== Sys2Proof/Syntax.lean ====
section
/-! DEFINITION. The command set: one constructor per row of spec/opcode_table.json (R103, R104). -/

namespace Sys2Proof

/-- The commands, in the order of the opcode table. A command has no operand in its word (R100, R101):
its operands are registers. The table gives the illegal codes six rows; the five range rows carry the
whole code, which `Instr.WellFormed` holds against the row. -/
inductive Instr where
  /-- DECODE, code 0x01 (R134). -/
  | decode
  /-- HMAC, code 0x02 (R200). -/
  | hmac
  /-- TRUNC, code 0x03 (R224). -/
  | trunc
  /-- COMPARE, code 0x04 (R242). -/
  | compare
  /-- GENERATE, code 0x05 (R261). -/
  | generate
  /-- VERIFY, code 0x06 (R265). -/
  | verify
  /-- ZEROIZE, code 0x07 (R270). -/
  | zeroize
  /-- The illegal code 0x00 (R275). -/
  | illegal00
  /-- An illegal code 0x08 to 0x0F (R275). -/
  | illegal08 (code : BitVec 8)
  /-- An illegal code 0x10 to 0x1F (R275). -/
  | illegal10 (code : BitVec 8)
  /-- An illegal code 0x20 to 0x3F (R275). -/
  | illegal20 (code : BitVec 8)
  /-- An illegal code 0x40 to 0x7F (R275). -/
  | illegal40 (code : BitVec 8)
  /-- An illegal code 0x80 to 0xFF (R275). -/
  | illegal80 (code : BitVec 8)
  deriving DecidableEq, Repr

end Sys2Proof
end

