-- ==== Sys2Proof/WellFormed.lean ====
section
/-! DEFINITION. Which terms of `Instr` stand for a command word: the code a range row carries lies in that
row of spec/opcode_table.json (R104). -/

namespace Sys2Proof

/-- A code fits a row of the opcode table: the bits under the row's mask are the row's match. -/
def codeFits (maskBits matchBits code : BitVec 8) : Bool := code &&& maskBits == matchBits

/-- The code that a range row carries lies in that row. -/
def Instr.WellFormed : Instr → Bool
  | .decode => true
  | .hmac => true
  | .trunc => true
  | .compare => true
  | .generate => true
  | .verify => true
  | .zeroize => true
  | .illegal00 => true
  | .illegal08 c => codeFits 0xF8#8 0x08#8 c
  | .illegal10 c => codeFits 0xF0#8 0x10#8 c
  | .illegal20 c => codeFits 0xE0#8 0x20#8 c
  | .illegal40 c => codeFits 0xC0#8 0x40#8 c
  | .illegal80 c => codeFits 0x80#8 0x80#8 c

end Sys2Proof
end

