-- ==== Sys2Proof/Decode.lean ====
section
/-! DEFINITION. Decoding and encoding of command words (R100, R103, R104, R105). The decoder is total: on a
whole bus word it always names a command, and it rejects by name a value that is not one bus word (log 16). -/

namespace Sys2Proof

/-- Why a list of byte lanes is no command word. -/
inductive DecodeReject where
  /-- Fewer than four byte lanes: a narrow access, which does not exist (R85, R87). Safe: nothing is decoded. -/
  | narrow
  /-- More than four byte lanes: every command is one bus word (R100, R105). Safe: nothing is decoded. -/
  | wide
  deriving DecidableEq, Repr

/-- The command that a code selects (R103, R104): the seven commands, then the six illegal rows. -/
def decodeCode (c : BitVec 8) : Instr :=
  if c = 0x01#8 then .decode
  else if c = 0x02#8 then .hmac
  else if c = 0x03#8 then .trunc
  else if c = 0x04#8 then .compare
  else if c = 0x05#8 then .generate
  else if c = 0x06#8 then .verify
  else if c = 0x07#8 then .zeroize
  else if c = 0x00#8 then .illegal00
  else if codeFits 0xF8#8 0x08#8 c then .illegal08 c
  else if codeFits 0xF0#8 0x10#8 c then .illegal10 c
  else if codeFits 0xE0#8 0x20#8 c then .illegal20 c
  else if codeFits 0xC0#8 0x40#8 c then .illegal40 c
  else .illegal80 c

/-- CODE, bits [7:0] of the value written to CMD (R100). -/
def codeOf (w : Word) : BitVec 8 := w.extractLsb' 0 8

/-- The command of a word written to CMD. Bits [31:8] are not looked at (R100, R104). -/
def decode (w : Word) : Instr := decodeCode (codeOf w)

/-- The bus word whose byte lanes are given, lane 0 (bits [7:0]) first. -/
def wordOfLanes (b0 b1 b2 b3 : Byte) : Word := b3 ++ b2 ++ b1 ++ b0

/-- Decoding on any list of byte lanes of the data bus, lane 0 (bits [7:0]) first. -/
def decodeLanes : List Byte → Except DecodeReject Instr
  | [b0, b1, b2, b3] => .ok (decode (wordOfLanes b0 b1 b2 b3))
  | [] => .error .narrow
  | [_] => .error .narrow
  | [_, _] => .error .narrow
  | [_, _, _] => .error .narrow
  | _ :: _ :: _ :: _ :: _ :: _ => .error .wide

/-- The code of a command (R103, R104). -/
def encodeCode : Instr → BitVec 8
  | .decode => 0x01#8
  | .hmac => 0x02#8
  | .trunc => 0x03#8
  | .compare => 0x04#8
  | .generate => 0x05#8
  | .verify => 0x06#8
  | .zeroize => 0x07#8
  | .illegal00 => 0x00#8
  | .illegal08 c => c
  | .illegal10 c => c
  | .illegal20 c => c
  | .illegal40 c => c
  | .illegal80 c => c

/-- The bus word of a command, with the ignored bits [31:8] zero. -/
def encode (i : Instr) : Word := (encodeCode i).setWidth 32

/-- The byte lanes of a bus word, lane 0 (bits [7:0]) first. -/
def lanesOf (w : Word) : List Byte :=
  [w.extractLsb' 0 8, w.extractLsb' 8 8, w.extractLsb' 16 8, w.extractLsb' 24 8]

/-- The low `nbits` bits of `w` as one bus word, every bit above them zero. -/
def tableWord (nbits w : Nat) : Word := BitVec.ofNat 32 (w % 2 ^ nbits)

/-- The instruction the decoder reads from a table word of `nbits` bits; none for a row wider than the
one bus word that a command is (R100). -/
def decodeTableWord (nbits w : Nat) : Option Instr :=
  if nbits ≤ 32 then
    match decodeLanes (lanesOf (tableWord nbits w)) with
    | .ok i => some i
    | .error _ => none
  else none

/-- A row of spec/opcode_table.json: its mnemonic, mask and match, all on the 32-bit word. -/
structure Row where
  mnemonic : String
  maskBits : Word
  matchBits : Word
  deriving DecidableEq, Repr

/-- The word has the row's fixed bits. -/
def Row.fits (r : Row) (w : Word) : Bool := w &&& r.maskBits == r.matchBits

/-- The opcode table, row by row, as spec/opcode_table.json lists it. -/
def opcodeTable : List Row :=
  [⟨"DECODE", 0x000000FF#32, 0x00000001#32⟩,
   ⟨"HMAC", 0x000000FF#32, 0x00000002#32⟩,
   ⟨"TRUNC", 0x000000FF#32, 0x00000003#32⟩,
   ⟨"COMPARE", 0x000000FF#32, 0x00000004#32⟩,
   ⟨"GENERATE", 0x000000FF#32, 0x00000005#32⟩,
   ⟨"VERIFY", 0x000000FF#32, 0x00000006#32⟩,
   ⟨"ZEROIZE", 0x000000FF#32, 0x00000007#32⟩,
   ⟨"ILLEGAL", 0x000000FF#32, 0x00000000#32⟩,
   ⟨"ILLEGAL", 0x000000F8#32, 0x00000008#32⟩,
   ⟨"ILLEGAL", 0x000000F0#32, 0x00000010#32⟩,
   ⟨"ILLEGAL", 0x000000E0#32, 0x00000020#32⟩,
   ⟨"ILLEGAL", 0x000000C0#32, 0x00000040#32⟩,
   ⟨"ILLEGAL", 0x00000080#32, 0x00000080#32⟩]

/-- The place of a command's row in `opcodeTable`. -/
def Instr.rowIndex : Instr → Nat
  | .decode => 0
  | .hmac => 1
  | .trunc => 2
  | .compare => 3
  | .generate => 4
  | .verify => 5
  | .zeroize => 6
  | .illegal00 => 7
  | .illegal08 _ => 8
  | .illegal10 _ => 9
  | .illegal20 _ => 10
  | .illegal40 _ => 11
  | .illegal80 _ => 12

end Sys2Proof
end

