-- ==== Sys2Proof/Machine/Operands.lean ====
section
/-! DEFINITION. The implicit operands of the commands (R101, R102): the byte strings and mode fields that a
command reads from the registers at completion. -/

namespace Sys2Proof.Machine

/-- SECRET[0..SECRET_LEN), the characters of the secret (R38, R48). -/
def secretChars (b : Block) : List Byte := slice b.secret.bytes 0 b.secretLen.toNat

/-- KEY[0..KEY_LEN), the raw key (R39, R48). -/
def keyBytes (b : Block) : List Byte := slice b.key.bytes 0 b.keyLen.toNat

/-- DIGEST[0..DIGEST_LEN) (R201, R220). -/
def digestBytes (b : Block) : List Byte := slice b.digest.bytes 0 b.digestLen.toNat

/-- The counter integer `C = COUNTER_HI * 2^32 + COUNTER_LO` (R40). -/
def counter (b : Block) : Nat := b.counterHi.toNat * 2 ^ 32 + b.counterLo.toNat

/-- The algorithm that CTRL.ALG selects; the value 3 selects none (R101, R181). -/
def algOf (a : BitVec 2) : Option Alg :=
  if a = 0#2 then some .sha1
  else if a = 1#2 then some .sha256
  else if a = 2#2 then some .sha512
  else none

/-- DIGITS is legal: 6, 7 or 8 (R34, R101). -/
def legalDigits (d : BitVec 4) : Bool := d == 6#4 || d == 7#4 || d == 8#4

end Sys2Proof.Machine
end

