-- ==== Sys2Proof/Machine/Base32.lean ====
section
/-! DEFINITION. The base32 decoder and the DECODE command (R130 to R134). -/

namespace Sys2Proof.Machine

/-- The value of a base32 character, in either case; none outside the alphabet (R130). -/
def b32val (c : Byte) : Option Nat :=
  if 0x41 ≤ c.toNat ∧ c.toNat ≤ 0x5A then some (c.toNat - 0x41)
  else if 0x61 ≤ c.toNat ∧ c.toNat ≤ 0x7A then some (c.toNat - 0x61)
  else if 0x32 ≤ c.toNat ∧ c.toNat ≤ 0x37 then some (c.toNat - 0x32 + 26)
  else none

/-- The values of a string's characters, or none where the charset check of R131 fails. -/
def b32symbols : List Byte → Option (List Nat)
  | [] => some []
  | c :: cs =>
    match b32val c, b32symbols cs with
    | some v, some vs => some (v :: vs)
    | _, _ => none

/-- The rolling buffer of R132: `acc` holds `nbits` unemitted bits; each symbol appends 5, and a byte leaves
with the 8 oldest bits as soon as there are 8. Bits left at the end are discarded (R133). -/
def b32emit : Nat → Nat → List Nat → List Byte
  | _, _, [] => []
  | acc, nbits, v :: vs =>
    if nbits + 5 ≥ 8 then
      BitVec.ofNat 8 (((acc <<< 5) ||| v) >>> (nbits + 5 - 8))
        :: b32emit (((acc <<< 5) ||| v) % 2 ^ (nbits + 5 - 8)) (nbits + 5 - 8) vs
    else b32emit ((acc <<< 5) ||| v) (nbits + 5) vs

/-- `b32decode` with its charset check (R131, R132): none means InvalidCharset. -/
def b32decode (s : List Byte) : Option (List Byte) := (b32symbols s).map (b32emit 0 0)

/-- The body of DECODE (R134). -/
def decodeBody (b : Block) : Except CommandError Block :=
  if b.secretLen.toNat > Config.secretMaxChars then .error .invalidLength
  else
    match b32decode (secretChars b) with
    | none => .error .invalidCharset
    | some k => .ok (writeKey k b)

/-- DECODE (R134). -/
def execDecode (s : State) : Host.Outcome State Fault Refusal := runCommand decodeBody s

end Sys2Proof.Machine
end

