-- ==== Sys2Proof/Machine/Comparator.lean ====
section
/-! DEFINITION. The code comparator and the COMPARE command (R240 to R242). -/

namespace Sys2Proof.Machine

/-- CODE_LEN holds the length of a code: 6, 7 or 8 (R240). -/
def legalCodeLen (n : Word) : Bool := n == 6#32 || n == 7#32 || n == 8#32

/-- The comparison of R240: the code's length is legal, CAND_LEN equals it in all 32 bits, and the first
CODE_LEN characters of CAND and CODE_ASCII are equal. -/
def codeMatches (b : Block) : Bool :=
  legalCodeLen b.codeLen && b.candLen == b.codeLen
    && (List.range b.codeLen.toNat).all fun i => b.cand.byte i == b.codeAscii.byte i

/-- The accumulated difference of the fixed-schedule form (R241): all 8 positions, always. -/
def fixedDiff (b : Block) : Byte :=
  (List.range 8).foldl
    (fun diff i => diff ||| ((b.cand.byte i ^^^ b.codeAscii.byte i) &&& (if i < b.codeLen.toNat then 0xFF#8 else 0x00#8)))
    0x00#8

/-- The fixed-schedule form of the comparison (R241), which has no early exit. -/
def codeMatchesFixed (b : Block) : Bool :=
  (b.candLen == b.codeLen && b.codeLen != 0#32) && fixedDiff b == 0x00#8

/-- The comparison stage: VERDICT takes 1 (VALID) or 2 (INVALID) (R45, R242, R265). -/
def writeVerdict (b : Block) : Block := { b with verdict := if codeMatches b then 1#2 else 2#2 }

/-- The body of COMPARE (R242). -/
def compareBody (b : Block) : Except CommandError Block := .ok (writeVerdict b)

/-- COMPARE (R242). -/
def execCompare (s : State) : Host.Outcome State Fault Refusal := runCommand compareBody s

end Sys2Proof.Machine
end

