-- ==== Sys2Proof/Machine/Counter.lean ====
section
/-! DEFINITION. The counter packer (R150, R151). The counter integer itself is the host's to compute (R152); how it
presents one is `counterStmts`, and the examples of R152 are values of `counter` and `counterMessage`. -/

namespace Sys2Proof.Machine

/-- `MSG = be(8, C)`, the 8-byte HMAC message (R150; last column of the examples of R152). -/
def counterMessage (b : Block) : List Byte := be 8 (counter b)

end Sys2Proof.Machine
end

