-- ==== Sys2Proof/Machine/Sha.lean ====
section
/-! DEFINITION. SHA-1, SHA-256 and SHA-512 on byte strings (R160 to R181; general knowledge by the
spec's own mark, log 14). -/

namespace Sys2Proof.Machine

/-! ## Padding and blocks (R160, R161) -/

/-- The number z of zero bytes in the padding of R161: the least that makes a message of `len` bytes, the byte
0x80, the zeros and a length field of `field` bytes a multiple of `block` bytes. -/
def padZeros (block field len : Nat) : Nat := (block - (len + 1 + field) % block) % block

/-- The padded message M' of R161, with a length field of `field` bytes. -/
def padMessage (block field : Nat) (m : List Byte) : List Byte :=
  m ++ [0x80#8] ++ List.replicate (padZeros block field m.length) 0#8 ++ be field (8 * m.length)

/-- The first `count` pieces of `size` elements each. -/
def pieces {α : Type} : Nat → Nat → List α → List (List α)
  | 0, _, _ => []
  | count + 1, size, s => s.take size :: pieces count size (s.drop size)

/-- The sixteen big-endian words of `w` bits of a message block (R160). -/
def blockWords (w : Nat) (block : List Byte) : List (BitVec w) :=
  (pieces 16 (w / 8) block).map fun p => BitVec.ofNat w (intBe p)

/-- The blocks of a padded message as word lists, in order (R160, R161). -/
def messageBlocks (w block : Nat) (m : List Byte) : List (List (BitVec w)) :=
  (pieces (m.length / block) block m).map (blockWords w)

/-- Ch (R163, R170, R175). -/
def ch {w : Nat} (x y z : BitVec w) : BitVec w := (x &&& y) ^^^ (~~~x &&& z)

/-- Parity (R163). -/
def parity {w : Nat} (x y z : BitVec w) : BitVec w := x ^^^ y ^^^ z

/-- Maj (R163, R170, R175). -/
def maj {w : Nat} (x y z : BitVec w) : BitVec w := (x &&& y) ^^^ (x &&& z) ^^^ (y &&& z)

/-- A message schedule, newest word first: `count` words are added, each by `next` from the words before it
(R165, R173, R178). In a list whose head is W_(t-1), W_(t-k) is element k - 1. -/
def extendSchedule {w : Nat} (next : List (BitVec w) → BitVec w) : Nat → List (BitVec w) → List (BitVec w)
  | 0, ws => ws
  | count + 1, ws => extendSchedule next count (next ws :: ws)

/-- W_(t-k) in a schedule whose head is W_(t-1). -/
def back {w : Nat} (ws : List (BitVec w)) (k : Nat) : BitVec w := ws.getD (k - 1) 0

/-! ## SHA-1 (R163 to R167) -/

/-- The five SHA-1 words. -/
structure Sha1State where
  a : BitVec 32
  b : BitVec 32
  c : BitVec 32
  d : BitVec 32
  e : BitVec 32
  deriving DecidableEq, Repr

/-- `f_t` of R163. -/
def sha1F (t : Nat) (b c d : BitVec 32) : BitVec 32 :=
  if t ≤ 19 then ch b c d
  else if t ≤ 39 then parity b c d
  else if t ≤ 59 then maj b c d
  else parity b c d

/-- `K_t` of R163. -/
def sha1K (t : Nat) : BitVec 32 :=
  if t ≤ 19 then 0x5A827999#32
  else if t ≤ 39 then 0x6ED9EBA1#32
  else if t ≤ 59 then 0x8F1BBCDC#32
  else 0xCA62C1D6#32

/-- The initial hash value of R164. -/
def sha1Init : Sha1State := ⟨0x67452301#32, 0xEFCDAB89#32, 0x98BADCFE#32, 0x10325476#32, 0xC3D2E1F0#32⟩

/-- The schedule's next word, W_t for t ≥ 16 (R165). -/
def sha1Next (ws : List (BitVec 32)) : BitVec 32 :=
  rotl (back ws 3 ^^^ back ws 8 ^^^ back ws 14 ^^^ back ws 16) 1

/-- W_0 to W_79 of a block (R165). -/
def sha1Schedule (m : List (BitVec 32)) : List (BitVec 32) := (extendSchedule sha1Next 64 m.reverse).reverse

/-- Round t of R165, on the pair (t, W_t). -/
def sha1Round (v : Sha1State) (x : Nat × BitVec 32) : Sha1State :=
  { a := rotl v.a 5 + sha1F x.1 v.b v.c v.d + v.e + sha1K x.1 + x.2
    b := v.a
    c := rotl v.b 30
    d := v.c
    e := v.d }

/-- The processing of one block (R165). -/
def sha1Block (h : Sha1State) (m : List (BitVec 32)) : Sha1State :=
  let v := ((List.range 80).zip (sha1Schedule m)).foldl sha1Round h
  ⟨h.a + v.a, h.b + v.b, h.c + v.c, h.d + v.d, h.e + v.e⟩

/-- The digest bytes of the five final words (R167). -/
def sha1Bytes (h : Sha1State) : List Byte :=
  be 4 h.a.toNat ++ be 4 h.b.toNat ++ be 4 h.c.toNat ++ be 4 h.d.toNat ++ be 4 h.e.toNat

/-- `SHA1(M)`, 20 bytes (R167). -/
def sha1 (m : List Byte) : List Byte :=
  sha1Bytes ((messageBlocks 32 64 (padMessage 64 8 m)).foldl sha1Block sha1Init)

/-! ## SHA-256 and SHA-512 (R170 to R179)

R178 gives SHA-512 as R173 with other functions, constants and word size, so the block processing is written
once, over what differs. -/

/-- What SHA-256 and SHA-512 differ in (R170, R171, R175, R176). -/
structure Sha2Params (w : Nat) where
  /-- Σ0 -/
  bigSigma0 : BitVec w → BitVec w
  /-- Σ1 -/
  bigSigma1 : BitVec w → BitVec w
  /-- σ0 -/
  smallSigma0 : BitVec w → BitVec w
  /-- σ1 -/
  smallSigma1 : BitVec w → BitVec w
  /-- The round constants, in order; their number is the number of rounds. -/
  constants : List (BitVec w)

/-- The eight SHA-2 words. -/
structure Sha2State (w : Nat) where
  a : BitVec w
  b : BitVec w
  c : BitVec w
  d : BitVec w
  e : BitVec w
  f : BitVec w
  g : BitVec w
  h : BitVec w
  deriving DecidableEq, Repr

/-- The schedule's next word, W_t for t ≥ 16 (R173, R178). -/
def sha2Next {w : Nat} (p : Sha2Params w) (ws : List (BitVec w)) : BitVec w :=
  p.smallSigma1 (back ws 2) + back ws 7 + p.smallSigma0 (back ws 15) + back ws 16

/-- The schedule of a block, one word per round (R173, R178). -/
def sha2Schedule {w : Nat} (p : Sha2Params w) (m : List (BitVec w)) : List (BitVec w) :=
  (extendSchedule (sha2Next p) (p.constants.length - 16) m.reverse).reverse

/-- T1 of a round (R173, R178), on the pair (K_t, W_t). -/
def sha2T1 {w : Nat} (p : Sha2Params w) (v : Sha2State w) (x : BitVec w × BitVec w) : BitVec w :=
  v.h + p.bigSigma1 v.e + ch v.e v.f v.g + x.1 + x.2

/-- T2 of a round (R173, R178). -/
def sha2T2 {w : Nat} (p : Sha2Params w) (v : Sha2State w) : BitVec w := p.bigSigma0 v.a + maj v.a v.b v.c

/-- A round of R173 and R178, on the pair (K_t, W_t). -/
def sha2Round {w : Nat} (p : Sha2Params w) (v : Sha2State w) (x : BitVec w × BitVec w) : Sha2State w :=
  { a := sha2T1 p v x + sha2T2 p v
    b := v.a
    c := v.b
    d := v.c
    e := v.d + sha2T1 p v x
    f := v.e
    g := v.f
    h := v.g }

/-- The processing of one block (R173, R178). -/
def sha2Block {w : Nat} (p : Sha2Params w) (h : Sha2State w) (m : List (BitVec w)) : Sha2State w :=
  let v := (p.constants.zip (sha2Schedule p m)).foldl (sha2Round p) h
  ⟨h.a + v.a, h.b + v.b, h.c + v.c, h.d + v.d, h.e + v.e, h.f + v.f, h.g + v.g, h.h + v.h⟩

/-- The digest bytes of the eight final words of `bytes` bytes each (R174, R179). -/
def sha2Bytes {w : Nat} (bytes : Nat) (h : Sha2State w) : List Byte :=
  be bytes h.a.toNat ++ be bytes h.b.toNat ++ be bytes h.c.toNat ++ be bytes h.d.toNat
    ++ be bytes h.e.toNat ++ be bytes h.f.toNat ++ be bytes h.g.toNat ++ be bytes h.h.toNat

/-- K_0 to K_63 of R171. -/
def sha256K : List (BitVec 32) :=
  [0x428A2F98#32, 0x71374491#32, 0xB5C0FBCF#32, 0xE9B5DBA5#32]
    ++ [0x3956C25B#32, 0x59F111F1#32, 0x923F82A4#32, 0xAB1C5ED5#32]
    ++ [0xD807AA98#32, 0x12835B01#32, 0x243185BE#32, 0x550C7DC3#32]
    ++ [0x72BE5D74#32, 0x80DEB1FE#32, 0x9BDC06A7#32, 0xC19BF174#32]
    ++ [0xE49B69C1#32, 0xEFBE4786#32, 0x0FC19DC6#32, 0x240CA1CC#32]
    ++ [0x2DE92C6F#32, 0x4A7484AA#32, 0x5CB0A9DC#32, 0x76F988DA#32]
    ++ [0x983E5152#32, 0xA831C66D#32, 0xB00327C8#32, 0xBF597FC7#32]
    ++ [0xC6E00BF3#32, 0xD5A79147#32, 0x06CA6351#32, 0x14292967#32]
    ++ [0x27B70A85#32, 0x2E1B2138#32, 0x4D2C6DFC#32, 0x53380D13#32]
    ++ [0x650A7354#32, 0x766A0ABB#32, 0x81C2C92E#32, 0x92722C85#32]
    ++ [0xA2BFE8A1#32, 0xA81A664B#32, 0xC24B8B70#32, 0xC76C51A3#32]
    ++ [0xD192E819#32, 0xD6990624#32, 0xF40E3585#32, 0x106AA070#32]
    ++ [0x19A4C116#32, 0x1E376C08#32, 0x2748774C#32, 0x34B0BCB5#32]
    ++ [0x391C0CB3#32, 0x4ED8AA4A#32, 0x5B9CCA4F#32, 0x682E6FF3#32]
    ++ [0x748F82EE#32, 0x78A5636F#32, 0x84C87814#32, 0x8CC70208#32]
    ++ [0x90BEFFFA#32, 0xA4506CEB#32, 0xBEF9A3F7#32, 0xC67178F2#32]

/-- The SHA-256 functions and constants (R170, R171). -/
def sha256Params : Sha2Params 32 where
  bigSigma0 x := rotr x 2 ^^^ rotr x 13 ^^^ rotr x 22
  bigSigma1 x := rotr x 6 ^^^ rotr x 11 ^^^ rotr x 25
  smallSigma0 x := rotr x 7 ^^^ rotr x 18 ^^^ (x >>> 3)
  smallSigma1 x := rotr x 17 ^^^ rotr x 19 ^^^ (x >>> 10)
  constants := sha256K

/-- The initial hash value of R172. -/
def sha256Init : Sha2State 32 :=
  ⟨0x6A09E667#32, 0xBB67AE85#32, 0x3C6EF372#32, 0xA54FF53A#32,
   0x510E527F#32, 0x9B05688C#32, 0x1F83D9AB#32, 0x5BE0CD19#32⟩

/-- `SHA256(M)`, 32 bytes (R174). -/
def sha256 (m : List Byte) : List Byte :=
  sha2Bytes 4 ((messageBlocks 32 64 (padMessage 64 8 m)).foldl (sha2Block sha256Params) sha256Init)

/-- K_0 to K_79 of R176. -/
def sha512K : List (BitVec 64) :=
  [0x428A2F98D728AE22#64, 0x7137449123EF65CD#64, 0xB5C0FBCFEC4D3B2F#64, 0xE9B5DBA58189DBBC#64]
    ++ [0x3956C25BF348B538#64, 0x59F111F1B605D019#64, 0x923F82A4AF194F9B#64, 0xAB1C5ED5DA6D8118#64]
    ++ [0xD807AA98A3030242#64, 0x12835B0145706FBE#64, 0x243185BE4EE4B28C#64, 0x550C7DC3D5FFB4E2#64]
    ++ [0x72BE5D74F27B896F#64, 0x80DEB1FE3B1696B1#64, 0x9BDC06A725C71235#64, 0xC19BF174CF692694#64]
    ++ [0xE49B69C19EF14AD2#64, 0xEFBE4786384F25E3#64, 0x0FC19DC68B8CD5B5#64, 0x240CA1CC77AC9C65#64]
    ++ [0x2DE92C6F592B0275#64, 0x4A7484AA6EA6E483#64, 0x5CB0A9DCBD41FBD4#64, 0x76F988DA831153B5#64]
    ++ [0x983E5152EE66DFAB#64, 0xA831C66D2DB43210#64, 0xB00327C898FB213F#64, 0xBF597FC7BEEF0EE4#64]
    ++ [0xC6E00BF33DA88FC2#64, 0xD5A79147930AA725#64, 0x06CA6351E003826F#64, 0x142929670A0E6E70#64]
    ++ [0x27B70A8546D22FFC#64, 0x2E1B21385C26C926#64, 0x4D2C6DFC5AC42AED#64, 0x53380D139D95B3DF#64]
    ++ [0x650A73548BAF63DE#64, 0x766A0ABB3C77B2A8#64, 0x81C2C92E47EDAEE6#64, 0x92722C851482353B#64]
    ++ [0xA2BFE8A14CF10364#64, 0xA81A664BBC423001#64, 0xC24B8B70D0F89791#64, 0xC76C51A30654BE30#64]
    ++ [0xD192E819D6EF5218#64, 0xD69906245565A910#64, 0xF40E35855771202A#64, 0x106AA07032BBD1B8#64]
    ++ [0x19A4C116B8D2D0C8#64, 0x1E376C085141AB53#64, 0x2748774CDF8EEB99#64, 0x34B0BCB5E19B48A8#64]
    ++ [0x391C0CB3C5C95A63#64, 0x4ED8AA4AE3418ACB#64, 0x5B9CCA4F7763E373#64, 0x682E6FF3D6B2B8A3#64]
    ++ [0x748F82EE5DEFB2FC#64, 0x78A5636F43172F60#64, 0x84C87814A1F0AB72#64, 0x8CC702081A6439EC#64]
    ++ [0x90BEFFFA23631E28#64, 0xA4506CEBDE82BDE9#64, 0xBEF9A3F7B2C67915#64, 0xC67178F2E372532B#64]
    ++ [0xCA273ECEEA26619C#64, 0xD186B8C721C0C207#64, 0xEADA7DD6CDE0EB1E#64, 0xF57D4F7FEE6ED178#64]
    ++ [0x06F067AA72176FBA#64, 0x0A637DC5A2C898A6#64, 0x113F9804BEF90DAE#64, 0x1B710B35131C471B#64]
    ++ [0x28DB77F523047D84#64, 0x32CAAB7B40C72493#64, 0x3C9EBE0A15C9BEBC#64, 0x431D67C49C100D4C#64]
    ++ [0x4CC5D4BECB3E42B6#64, 0x597F299CFC657E2A#64, 0x5FCB6FAB3AD6FAEC#64, 0x6C44198C4A475817#64]

/-- The SHA-512 functions and constants (R175, R176). -/
def sha512Params : Sha2Params 64 where
  bigSigma0 x := rotr x 28 ^^^ rotr x 34 ^^^ rotr x 39
  bigSigma1 x := rotr x 14 ^^^ rotr x 18 ^^^ rotr x 41
  smallSigma0 x := rotr x 1 ^^^ rotr x 8 ^^^ (x >>> 7)
  smallSigma1 x := rotr x 19 ^^^ rotr x 61 ^^^ (x >>> 6)
  constants := sha512K

/-- The initial hash value of R177. -/
def sha512Init : Sha2State 64 :=
  ⟨0x6A09E667F3BCC908#64, 0xBB67AE8584CAA73B#64, 0x3C6EF372FE94F82B#64, 0xA54FF53A5F1D36F1#64,
   0x510E527FADE682D1#64, 0x9B05688C2B3E6C1F#64, 0x1F83D9ABFB41BD6B#64, 0x5BE0CD19137E2179#64⟩

/-- `SHA512(M)`, 64 bytes (R179). -/
def sha512 (m : List Byte) : List Byte :=
  sha2Bytes 8 ((messageBlocks 64 128 (padMessage 128 16 m)).foldl (sha2Block sha512Params) sha512Init)

end Sys2Proof.Machine
end

