-- ==== Sys2Proof/Machine/Hmac.lean ====
section
/-! DEFINITION. Algorithm selection, HMAC and the HMAC command (R181, R185, R186, R200, R201;
log 14). -/

namespace Sys2Proof.Machine

/-- The hash function H of an algorithm (R181). -/
def Alg.hash : Alg → List Byte → List Byte
  | .sha1 => Sys2Proof.Machine.sha1
  | .sha256 => Sys2Proof.Machine.sha256
  | .sha512 => Sys2Proof.Machine.sha512

/-- The block size B in bytes (R181). -/
def Alg.blockBytes : Alg → Nat
  | .sha1 => 64
  | .sha256 => 64
  | .sha512 => 128

/-- The output length L in bytes (R181). -/
def Alg.digestBytes : Alg → Nat
  | .sha1 => 20
  | .sha256 => 32
  | .sha512 => 64

/-- K0 of R185: the key, hashed first where it is longer than B, filled with zero bytes to B bytes. -/
def hmacKey (a : Alg) (key : List Byte) : List Byte :=
  padTo a.blockBytes (if key.length > a.blockBytes then a.hash key else key)

/-- A byte string with every byte XORed with the same byte: `K0 ^ ipad`, `K0 ^ opad` (R185). -/
def xorAll (s : List Byte) (b : Byte) : List Byte := s.map (· ^^^ b)

/-- `HMAC_H(K, text)` of R185. -/
def hmac (a : Alg) (key text : List Byte) : List Byte :=
  a.hash (xorAll (hmacKey a key) 0x5C#8 ++ a.hash (xorAll (hmacKey a key) 0x36#8 ++ text))

/-- The body of HMAC (R200). -/
def hmacBody (b : Block) : Except CommandError Block :=
  if b.keyLen.toNat > Config.keyMaxBytes then .error .invalidLength
  else
    match algOf b.ctrlAlg with
    | none => .error .unsupportedAlgorithm
    | some a => .ok (writeDigest (hmac a (keyBytes b) (counterMessage b)) b)

/-- HMAC (R200). -/
def execHmac (s : State) : Host.Outcome State Fault Refusal := runCommand hmacBody s

end Sys2Proof.Machine
end

