-- ==== Sys2Proof/Machine/Truncation.lean ====
section
/-! DEFINITION. Dynamic truncation, decimal folding and the TRUNC command (R220 to R226). The
functions are total; a digest string shorter than R220 allows does not arise (log 13). -/

namespace Sys2Proof.Machine

/-- The offset: the low 4 bits of the last digest byte (R221). -/
def truncOffset (d : List Byte) : BitVec 4 := (d.getD (d.length - 1) 0#8).extractLsb' 0 4

/-- P, the big-endian integer of the 4 digest bytes that start at byte index off (R222, C1). -/
def truncWindow (d : List Byte) : Nat :=
  intBe (slice d (truncOffset d).toNat ((truncOffset d).toNat + 4))

/-- `S = P & 0x7FFFFFFF` (R223). -/
def truncValue (d : List Byte) : Nat := truncWindow d &&& 0x7FFFFFFF

/-- `code = S mod 10^d` (R225). -/
def foldCode (value digits : Nat) : Nat := value % 10 ^ digits

/-- The decimal form of a code with exactly `digits` ASCII characters, most significant first (R225). -/
def decimalAscii (code digits : Nat) : List Byte :=
  (List.range digits).map fun j => BitVec.ofNat 8 (0x30 + code / 10 ^ (digits - 1 - j) % 10)

/-- The result registers of the truncation stage take the values of digest `d` folded to `digits` digits;
CODE_ASCII beyond the code is cleared (R224, R261, D36). -/
def writeCode (d : List Byte) (digits : Nat) (b : Block) : Block :=
  { b with
    truncOff := truncOffset d
    truncVal := BitVec.ofNat 31 (truncValue d)
    codeBin := BitVec.ofNat 32 (foldCode (truncValue d) digits)
    codeLen := BitVec.ofNat 32 digits
    codeAscii := Buf.ofBytes 8 (decimalAscii (foldCode (truncValue d) digits) digits) }

/-- The body of TRUNC (R224). -/
def truncBody (b : Block) : Except CommandError Block :=
  if legalDigits b.ctrlDigits then
    if b.digestLen = 0 then .error .noDigest
    else .ok (writeCode (digestBytes b) b.ctrlDigits.toNat b)
  else .error .invalidDigits

/-- TRUNC (R224). -/
def execTrunc (s : State) : Host.Outcome State Fault Refusal := runCommand truncBody s

end Sys2Proof.Machine
end

