-- ==== Sys2Proof/Machine/Composite.lean ====
section
/-! DEFINITION. The composite commands GENERATE and VERIFY (R261, R265). -/

namespace Sys2Proof.Machine

/-- The base32 length rule of GENERATE and VERIFY: at least 16, a multiple of 8, within the capacity (R261). -/
def legalSecretLen (n : Nat) : Bool := 16 ≤ n && n % 8 == 0 && n ≤ Config.secretMaxChars

/-- The key of GENERATE and VERIFY with its length and charset checks (R261): decoded from SECRET with
KSRC = 1, the raw KEY bytes with KSRC = 0. -/
def generateKey (b : Block) : Except CommandError (List Byte) :=
  if b.ctrlKsrc then
    if legalSecretLen b.secretLen.toNat then
      match b32decode (secretChars b) with
      | none => .error .invalidCharset
      | some k => .ok k
    else .error .invalidLength
  else if b.keyLen.toNat > Config.keyMaxBytes then .error .invalidLength
  else .ok (keyBytes b)

/-- Step 1 of R261: every check, in order, before any computation. It answers the key and the algorithm. -/
def generateChecks (b : Block) : Except CommandError (List Byte × Alg) :=
  match generateKey b with
  | .error e => .error e
  | .ok key =>
    if legalDigits b.ctrlDigits then
      match algOf b.ctrlAlg with
      | none => .error .unsupportedAlgorithm
      | some a => .ok (key, a)
    else .error .invalidDigits

/-- KEY and KEY_LEN take the decoded key with KSRC = 1; with KSRC = 0 they keep their values (R261). -/
def storeKey (key : List Byte) (b : Block) : Block := if b.ctrlKsrc then writeKey key b else b

/-- Step 2 of R261: the key, the digest and the code, each from the one before it. -/
def generateResults (key : List Byte) (a : Alg) (b : Block) : Block :=
  writeCode (hmac a key (counterMessage b)) b.ctrlDigits.toNat
    (writeDigest (hmac a key (counterMessage b)) (storeKey key b))

/-- The body of GENERATE (R261). -/
def generateBody (b : Block) : Except CommandError Block :=
  match generateChecks b with
  | .error e => .error e
  | .ok (key, a) => .ok (generateResults key a b)

/-- GENERATE (R261). -/
def execGenerate (s : State) : Host.Outcome State Fault Refusal := runCommand generateBody s

/-- The body of VERIFY (R265): GENERATE's body, then the comparison on the new code. -/
def verifyBody (b : Block) : Except CommandError Block :=
  match generateBody b with
  | .error e => .error e
  | .ok b' => .ok (writeVerdict b')

/-- VERIFY (R265). -/
def execVerify (s : State) : Host.Outcome State Fault Refusal := runCommand verifyBody s

end Sys2Proof.Machine
end

