-- ==== Sys2Proof/Machine/Utility.lean ====
section
/-! DEFINITION. ZEROIZE and the illegal codes (R270, R275). -/

namespace Sys2Proof.Machine

/-- Every data register and buffer at 0 (R270). CTRL, STATUS and PENDING keep their values. -/
def clearData (b : Block) : Block :=
  { b with
    secret := Buf.zero 256
    key := Buf.zero 160
    digest := Buf.zero 64
    codeAscii := Buf.zero 8
    cand := Buf.zero 8
    secretLen := 0
    keyLen := 0
    counterHi := 0
    counterLo := 0
    digestLen := 0
    truncOff := 0
    truncVal := 0
    codeBin := 0
    codeLen := 0
    candLen := 0
    verdict := 0 }

/-- The body of ZEROIZE (R270). -/
def zeroizeBody (b : Block) : Except CommandError Block := .ok (clearData b)

/-- ZEROIZE (R270). -/
def execZeroize (s : State) : Host.Outcome State Fault Refusal := runCommand zeroizeBody s

/-- The body of every illegal code (R275): no operand is read. -/
def illegalBody (_ : Block) : Except CommandError Block := .error .illegalCommand

/-- The illegal code 0x00 (R275). -/
def execIllegal00 (s : State) : Host.Outcome State Fault Refusal := runCommand illegalBody s

/-- The illegal codes 0x08 to 0x0F (R275). -/
def execIllegal08 (s : State) : Host.Outcome State Fault Refusal := runCommand illegalBody s

/-- The illegal codes 0x10 to 0x1F (R275). -/
def execIllegal10 (s : State) : Host.Outcome State Fault Refusal := runCommand illegalBody s

/-- The illegal codes 0x20 to 0x3F (R275). -/
def execIllegal20 (s : State) : Host.Outcome State Fault Refusal := runCommand illegalBody s

/-- The illegal codes 0x40 to 0x7F (R275). -/
def execIllegal40 (s : State) : Host.Outcome State Fault Refusal := runCommand illegalBody s

/-- The illegal codes 0x80 to 0xFF (R275). -/
def execIllegal80 (s : State) : Host.Outcome State Fault Refusal := runCommand illegalBody s

end Sys2Proof.Machine
end

