-- ==== Sys2Proof/Machine/Dispatch.lean ====
section
/-! DEFINITION. One arm per command: the completion step of the command in progress (R46, R103). -/

namespace Sys2Proof.Machine

/-- The completion step of command `i` at state `s` (R46). The engine takes it while BUSY = 1 (log 4). -/
def exec (i : Instr) (s : State) : Host.Outcome State Fault Refusal :=
  match i with
  | .decode => Sys2Proof.Machine.execDecode s
  | .hmac => Sys2Proof.Machine.execHmac s
  | .trunc => Sys2Proof.Machine.execTrunc s
  | .compare => Sys2Proof.Machine.execCompare s
  | .generate => Sys2Proof.Machine.execGenerate s
  | .verify => Sys2Proof.Machine.execVerify s
  | .zeroize => Sys2Proof.Machine.execZeroize s
  | .illegal00 => Sys2Proof.Machine.execIllegal00 s
  | .illegal08 _ => Sys2Proof.Machine.execIllegal08 s
  | .illegal10 _ => Sys2Proof.Machine.execIllegal10 s
  | .illegal20 _ => Sys2Proof.Machine.execIllegal20 s
  | .illegal40 _ => Sys2Proof.Machine.execIllegal40 s
  | .illegal80 _ => Sys2Proof.Machine.execIllegal80 s

end Sys2Proof.Machine
end

