-- ==== Sys2Proof/Machine/Agents.lean ====
section
/-! DEFINITION. Whose turn it is, and the engine's turn (R30, R31, R46, R335, R336; log 2). -/

namespace Sys2Proof.Machine

/-- The turn to take and the state with it taken off the schedule. Where the schedule is empty the engine
moves while BUSY = 1 and the host otherwise, so a command never waits for ever (R336). -/
def takeTurn (s : State) : Turn × State :=
  match s.schedule with
  | t :: rest => (t, { s with schedule := rest })
  | [] => (if s.block.busy then .engine else .host, s)

/-- The command in progress, from PENDING (R31, R46). -/
def pendingInstr (b : Block) : Instr := decodeCode b.pending

/-- The engine's turn: the completion step, enabled exactly when BUSY = 1 (R46); while reset is asserted the
block holds its reset values and nothing runs (R321). -/
def engineTurn (s : State) : Host.Outcome State Fault Refusal :=
  if s.block.busy && !s.resetAsserted then exec (pendingInstr s.block) s else .next s

/-- One turn of the named agent. -/
def runTurn (t : Turn) (s : State) : Host.Outcome State Fault Refusal :=
  match t with
  | .host => .next (hostTurn s)
  | .engine => engineTurn s
  | .resetPin asserted => .next (resetTurn asserted s)

/-- The state in which the command word `w` has been issued and the engine moves next (log 3). -/
def issueNext (w : Word) (s : State) : State :=
  { s with
    block := issue (codeOf w) s.block
    resetAsserted := false
    schedule := .engine :: s.schedule }

end Sys2Proof.Machine
end

