-- ==== Sys2Proof/Machine/Step.lean ====
section
/-! DEFINITION. One step of the machine: one turn of one agent, and the placing of a command word where the
next step runs it. -/

namespace Sys2Proof.Machine

/-- One step: the agent whose turn it is takes it (R30, R90). -/
def step (s : State) : Host.Outcome State Fault Refusal := runTurn (takeTurn s).1 (takeTurn s).2

/-- `s` with the command word issued and the engine to move, so that the next step runs that command. There
is no instruction memory: a command reaches the engine by a write to CMD (R46), for which this stands (log 3). -/
def State.withFetchWord (s : State) (nbits w : Nat) : State := issueNext (tableWord nbits w) s

end Sys2Proof.Machine
end

