-- ==== Sys2Proof/Machine/HostProgram.lean ====
section
/-! DEFINITION. The host-program notation and its expansions into bus transactions (R110, R111, R243). -/

namespace Sys2Proof.Machine

/-- `off(NAME)` of R32 and R110; a buffer word is at the buffer's offset plus 4k. Reserved offsets have no name. -/
def regOffset : Reg → Option Nat
  | .id => some 0x000
  | .version => some 0x004
  | .ctrl => some 0x008
  | .cmd => some 0x00C
  | .status => some 0x010
  | .error => some 0x014
  | .secretLen => some 0x018
  | .keyLen => some 0x01C
  | .counterHi => some 0x020
  | .counterLo => some 0x024
  | .digestLen => some 0x028
  | .truncOff => some 0x02C
  | .truncVal => some 0x030
  | .codeBin => some 0x034
  | .codeLen => some 0x038
  | .candLen => some 0x03C
  | .verdict => some 0x040
  | .params => some 0x044
  | .codeAscii k => if k < 2 then some (0x048 + 4 * k) else none
  | .cand k => if k < 2 then some (0x050 + 4 * k) else none
  | .digest k => if k < 16 then some (0x080 + 4 * k) else none
  | .secret k => if k < 64 then some (0x100 + 4 * k) else none
  | .key k => if k < 40 then some (0x200 + 4 * k) else none
  | .reserved => none

/-- `W NAME, v` at offset `off` (R110). -/
def writeStmt (off : Nat) (v : Word) : HostStmt := .write (addressOf off) .word v

/-- `R NAME` at offset `off` (R110). -/
def readStmt (off : Nat) : HostStmt := .read (addressOf off) .word

/-- `CMD MNEMONIC` is `W CMD, code` (R111). -/
def commandStmt (i : Instr) : HostStmt := writeStmt 0x00C (encode i)

/-- `WBYTES BUF, b0 b1 ...` with the buffer at offset `buf`: four bytes a word, the last word padded with 0x00,
ceil(n / 4) words (R111). -/
def bytesStmts (buf : Nat) (bytes : List Byte) : List HostStmt :=
  (List.range ((bytes.length + 3) / 4)).map fun k =>
    writeStmt (buf + 4 * k) (BitVec.ofNat 32 (intBe (padTo 4 (slice bytes (4 * k) (4 * k + 4)))))

/-- The ASCII bytes of a text. -/
def asciiBytes (text : String) : List Byte := text.toList.map fun c => BitVec.ofNat 8 c.toNat

/-- `WSTR BUF, "text"` (R111). -/
def stringStmts (buf : Nat) (text : String) : List HostStmt := bytesStmts buf (asciiBytes text)

/-- `W COUNTER, C` (R111): how the host presents the counter integer C, which must be below 2^64 (R152). -/
def counterStmts (c : Nat) : List HostStmt :=
  [writeStmt 0x020 (BitVec.ofNat 32 (c >>> 32)), writeStmt 0x024 (BitVec.ofNat 32 (c &&& 0xFFFFFFFF))]

/-- `W CTRL, {ALG=a, DIGITS=d, KSRC=k, IE=i}` (R111). -/
def ctrlStmt (a d k i : Nat) : HostStmt :=
  writeStmt 0x008 (BitVec.ofNat 32 (a ||| d <<< 4 ||| k <<< 8 ||| i <<< 9))

/-- CAND as the host writes a candidate: its first min(n, 8) characters (R243). What the bytes above them take is
not in R243; that they are 0x00 is a DESIGN CHOICE (log 17). -/
def candidateBuf (cand : List Byte) : Buf 8 := Buf.ofBytes 8 cand

/-- CAND_LEN as the host writes it: min(n, 0xFFFFFFFF) (R243). -/
def candidateLen (cand : List Byte) : Word := BitVec.ofNat 32 (min cand.length 0xFFFFFFFF)

/-- The writes that present a candidate: its characters into CAND and its length into CAND_LEN (R243). That both
CAND words are written whatever n is, and CAND_LEN after them, is a DESIGN CHOICE (log 17). -/
def candidateStmts (cand : List Byte) : List HostStmt :=
  [writeStmt 0x050 ((candidateBuf cand).word 0), writeStmt 0x054 ((candidateBuf cand).word 1),
   writeStmt 0x03C (candidateLen cand)]

end Sys2Proof.Machine
end

