-- ==== Sys2Proof/Safety.lean ====
section
/-! DEFINITION. The terms in which statements about the machine are made: the invariant, the end of a host
program, agreement of two blocks on registers, and the functions of the spec that are no unit of the block
(the base32 encoder of R135, the hex digest of R202). -/

namespace Sys2Proof.Machine

/-! ## The invariant -/

/-- DIGEST_LEN holds one of its values (R41, R51), and DIGEST beyond it is 0 (D36). -/
def Block.DigestInv (b : Block) : Prop :=
  (b.digestLen = 0 ∨ b.digestLen = 20 ∨ b.digestLen = 32 ∨ b.digestLen = 64)
    ∧ ∀ i, b.digestLen.toNat ≤ i → b.digest.byte i = 0

/-- The code registers describe one code (R226): with CODE_LEN = 0 all of them are 0, and otherwise CODE_LEN
is a legal digit count, CODE_BIN is TRUNC_VAL folded to it, and CODE_ASCII is its decimal form. -/
def Block.CodeInv (b : Block) : Prop :=
  (b.codeLen = 0 ∧ b.truncOff = 0 ∧ b.truncVal = 0 ∧ b.codeBin = 0 ∧ b.codeAscii = Buf.zero 8)
    ∨ (legalCodeLen b.codeLen = true
        ∧ b.codeBin.toNat = foldCode b.truncVal.toNat b.codeLen.toNat
        ∧ b.codeAscii = Buf.ofBytes 8 (decimalAscii b.codeBin.toNat b.codeLen.toNat))

/-- STATUS, ERROR and VERDICT agree (R36, R37, R45, R46, R290): while BUSY = 1 the outcome fields are clear;
ERR needs an error code; the code is one that the block writes; VERDICT is never 3, stands only beside
ERROR = 0, and is VALID only with a code. -/
def Block.OutcomeInv (b : Block) : Prop :=
  (b.busy = true → b.done = false ∧ b.err = false ∧ b.error = 0 ∧ b.verdict = 0)
    ∧ (b.err = true → b.error ≠ 0)
    ∧ (b.error.toNat < 8 ∧ b.error ≠ 5)
    ∧ b.verdict ≠ 3
    ∧ (b.verdict ≠ 0 → b.error = 0)
    ∧ (b.verdict = 1 → legalCodeLen b.codeLen = true)

/-- What holds of the block in every state the machine reaches. -/
def Block.Inv (b : Block) : Prop := b.DigestInv ∧ b.CodeInv ∧ b.OutcomeInv

/-- What holds of the machine in every state it reaches: the block's invariant, and the reset values while
reset is asserted (R321). -/
def State.Inv (s : State) : Prop := s.block.Inv ∧ (s.resetAsserted = true → s.block = Block.reset)

/-! ## Host programs -/

/-- The end of a host program (R337): its last statement has been performed and BUSY = 0. -/
def State.ProgramEnded (s : State) : Prop := s.program = [] ∧ s.block.busy = false

/-- The host moves next and has `stmt` to perform, with reset released. -/
def State.HostAt (s : State) (stmt : HostStmt) (rest : List HostStmt) (turns : List Turn) : Prop :=
  s.resetAsserted = false ∧ s.program = stmt :: rest
    ∧ (s.schedule = .host :: turns ∨ (s.schedule = [] ∧ turns = [] ∧ s.block.busy = false))

/-- The engine moves next on a command in progress, with reset released. -/
def State.EngineAt (s : State) (turns : List Turn) : Prop :=
  s.resetAsserted = false ∧ s.block.busy = true
    ∧ (s.schedule = .engine :: turns ∨ (s.schedule = [] ∧ turns = []))

/-- The state after a turn has been taken off the schedule. -/
def State.withSchedule (s : State) (turns : List Turn) : State := { s with schedule := turns }

/-- An offset at which the block has a whole register (R80): word-aligned and inside the window. -/
def WordOffset (off : Nat) : Prop := off % 4 = 0 ∧ off < Config.windowSize

/-! ## Runs, and one command from issue to completion -/

/-- `k` steps lead from `s` to `t`. -/
def StepsTo : Nat → State → State → Prop
  | 0, s, t => s = t
  | k + 1, s, t => ∃ u, step s = .next u ∧ StepsTo k u t

/-- A command issued and completed with nothing in between (R46): its code in PENDING, then its completion. -/
def commandAlone (i : Instr) (s : State) : Host.Outcome State Fault Refusal :=
  exec i (s.withBlock (issue (encodeCode i) s.block))

/-- The RW offsets whose whole word is stored (R32): SECRET_LEN, KEY_LEN, COUNTER_HI, COUNTER_LO, CAND_LEN and
the buffers CAND, SECRET and KEY. -/
def WritableWord (off : Nat) : Prop :=
  off = 0x018 ∨ off = 0x01C ∨ off = 0x020 ∨ off = 0x024 ∨ off = 0x03C
    ∨ (0x050 ≤ off ∧ off < 0x058) ∨ (0x100 ≤ off ∧ off < 0x200) ∨ (0x200 ≤ off ∧ off < 0x2A0)

/-- The reserved offsets (R84). -/
def ReservedOffset (off : Nat) : Prop :=
  (0x058 ≤ off ∧ off < 0x080) ∨ (0x0C0 ≤ off ∧ off < 0x100) ∨ (0x2A0 ≤ off ∧ off < 0x400)

/-! ## Errors and operands -/

/-- The code of the first check that fails, in the order listed; 0 where none fails (R291). -/
def firstFailing : List (Bool × BitVec 4) → BitVec 4
  | [] => 0
  | (true, c) :: _ => c
  | (false, _) :: rest => firstFailing rest

/-- Some character of SECRET[0..SECRET_LEN) is outside the alphabet (R131). -/
def badChar (b : Block) : Bool :=
  (List.range b.secretLen.toNat).any fun i => (b32val (b.secret.byte i)).isNone

/-- The checks of GENERATE and VERIFY in their order, each with whether it fails and the code it raises (R261, R291). -/
def generateChecklist (b : Block) : List (Bool × BitVec 4) :=
  [(bif b.ctrlKsrc then decide (b.secretLen.toNat < 16 ∨ b.secretLen.toNat % 8 ≠ 0 ∨ b.secretLen.toNat > 256)
      else decide (b.keyLen.toNat > 160), 1),
   (b.ctrlKsrc && badChar b, 2),
   (decide (b.ctrlDigits.toNat < 6 ∨ 8 < b.ctrlDigits.toNat), 3),
   (b.ctrlAlg == 3, 4)]

/-- The operands of GENERATE and VERIFY pass every check (R261), and give this key and this algorithm. -/
def GenerateReady (b : Block) (key : List Byte) (a : Alg) : Prop :=
  (b.ctrlKsrc = true → 16 ≤ b.secretLen.toNat ∧ b.secretLen.toNat % 8 = 0 ∧ b.secretLen.toNat ≤ 256
      ∧ b32decode (b.secret.bytes.take b.secretLen.toNat) = some key)
    ∧ (b.ctrlKsrc = false → b.keyLen.toNat ≤ 160 ∧ key = b.key.bytes.take b.keyLen.toNat)
    ∧ (b.ctrlDigits = 6 ∨ b.ctrlDigits = 7 ∨ b.ctrlDigits = 8)
    ∧ ((b.ctrlAlg = 0 ∧ a = .sha1) ∨ (b.ctrlAlg = 1 ∧ a = .sha256) ∨ (b.ctrlAlg = 2 ∧ a = .sha512))

/-- The comparison of R240 on the block's candidate and code, character by character. -/
def CandidateIsCode (b : Block) : Prop :=
  (b.codeLen = 6 ∨ b.codeLen = 7 ∨ b.codeLen = 8) ∧ b.candLen = b.codeLen
    ∧ ∀ i < b.codeLen.toNat, b.cand.byte i = b.codeAscii.byte i

/-- The number that a list of ASCII digits writes, most significant first. -/
def asciiValue (s : List Byte) : Nat := s.foldl (fun acc c => 10 * acc + (c.toNat - 0x30)) 0

/-! ## Agreement of two blocks on the operands of a command (R102) -/

/-- The operands of DECODE. -/
def SameDecodeOperands (b c : Block) : Prop := b.secretLen = c.secretLen ∧ secretChars b = secretChars c

/-- The operands of HMAC. -/
def SameHmacOperands (b c : Block) : Prop :=
  b.ctrlAlg = c.ctrlAlg ∧ b.keyLen = c.keyLen ∧ keyBytes b = keyBytes c
    ∧ b.counterHi = c.counterHi ∧ b.counterLo = c.counterLo

/-- The operands of TRUNC. -/
def SameTruncOperands (b c : Block) : Prop :=
  b.ctrlDigits = c.ctrlDigits ∧ b.digestLen = c.digestLen ∧ digestBytes b = digestBytes c

/-- The operands of GENERATE: with KSRC = 1 those of DECODE, with KSRC = 0 the raw key, and always ALG, DIGITS,
KSRC and the counter. -/
def SameGenerateOperands (b c : Block) : Prop :=
  b.ctrlAlg = c.ctrlAlg ∧ b.ctrlDigits = c.ctrlDigits ∧ b.ctrlKsrc = c.ctrlKsrc
    ∧ b.counterHi = c.counterHi ∧ b.counterLo = c.counterLo
    ∧ (b.ctrlKsrc = true → SameDecodeOperands b c)
    ∧ (b.ctrlKsrc = false → b.keyLen = c.keyLen ∧ keyBytes b = keyBytes c)

/-- The two blocks hold the same key. -/
def SameKey (b c : Block) : Prop := b.keyLen = c.keyLen ∧ b.key = c.key

/-- The two blocks hold the same digest. -/
def SameDigest (b c : Block) : Prop := b.digestLen = c.digestLen ∧ b.digest = c.digest

/-- The two blocks hold the same code. -/
def SameCode (b c : Block) : Prop :=
  b.truncOff = c.truncOff ∧ b.truncVal = c.truncVal ∧ b.codeBin = c.codeBin ∧ b.codeLen = c.codeLen
    ∧ b.codeAscii = c.codeAscii

/-! ## The base32 encoder of R135 -/

/-- The bits of a byte, most significant first. -/
def byteBits (c : Byte) : List Bool := (List.range 8).map fun i => c.getLsbD (7 - i)

/-- The number that a list of bits writes, most significant first. -/
def bitsValue (bits : List Bool) : Nat := bits.foldl (fun acc b => 2 * acc + b.toNat) 0

/-- The character of a base32 value in the order of R130. -/
def b32char (v : Nat) : Byte := if v < 26 then BitVec.ofNat 8 (0x41 + v) else BitVec.ofNat 8 (0x32 + (v - 26))

/-- The RFC 4648 encoding without padding (R135): the bits of the string in groups of 5, the last group filled
on the right with zero bits, ceil(8n/5) characters. -/
def b32encode (s : List Byte) : List Byte :=
  (List.range ((8 * s.length + 4) / 5)).map fun k =>
    b32char (bitsValue ((List.range 5).map fun j => (s.flatMap byteBits).getD (5 * k + j) false))

/-- The bits of a list of base32 values, five a value, most significant first. -/
def symbolBits (vs : List Nat) : List Bool := vs.flatMap fun v => (List.range 5).map fun i => v.testBit (4 - i)

/-! ## The hex digest of R202 -/

/-- The digest as a list of hex digit values: digits 2i and 2i+1 are the high and low halves of byte i. -/
def hexDigits (d : List Byte) : List Nat := d.flatMap fun c => [c.toNat / 16, c.toNat % 16]

end Sys2Proof.Machine
end

