-- ==== Sys2Proof/Certificates/Slice0/Obligations.lean ====
section
/-! DEFINITION. The statements about the PHTP OTP engine, from the numbered rules of spec/. -/

open Sys2Proof Sys2Proof.Machine

/-! ## Encoding -/

/-- Command words written out from the table of R103, with R104's examples of ignored bits and illegal codes. -/
def Obligations.WrittenWordsDecode : Prop :=
  decode 0x00000001#32 = .decode ∧ decode 0x00000002#32 = .hmac ∧ decode 0x00000003#32 = .trunc
    ∧ decode 0x00000004#32 = .compare ∧ decode 0x00000005#32 = .generate ∧ decode 0x00000006#32 = .verify
    ∧ decode 0x00000007#32 = .zeroize ∧ decode 0x12345605#32 = .generate
    ∧ decode 0x00000000#32 = .illegal00 ∧ decode 0x00000008#32 = .illegal08 0x08#8
    ∧ decode 0x0000001F#32 = .illegal10 0x1F#8 ∧ decode 0x00000020#32 = .illegal20 0x20#8
    ∧ decode 0x0000007F#32 = .illegal40 0x7F#8 ∧ decode 0x000000FF#32 = .illegal80 0xFF#8

/-- Decoding an encoded well-formed command gives it back, whatever the ignored bits [31:8] hold, and every
code is the code of exactly the well-formed command it decodes to (R100, R103, R104). -/
def Obligations.DecodeAndEncodeAgree : Prop :=
  (∀ i : Instr, i.WellFormed = true → decode (encode i) = i)
    ∧ (∀ (i : Instr) (high : BitVec 24), i.WellFormed = true → decode (high ++ encodeCode i) = i)
    ∧ (∀ c : BitVec 8, (decodeCode c).WellFormed = true ∧ encodeCode (decodeCode c) = c)

/-- Every command word has the fixed bits of exactly one row of the opcode table, the row of the command it
decodes to (R103, R104, opcode_table.json). -/
def Obligations.EveryWordMatchesExactlyItsRow : Prop :=
  ∀ (w : Word) (k : Nat) (r : Row), opcodeTable[k]? = some r → (r.fits w = true ↔ k = (decode w).rowIndex)

/-- The decoder accepts four byte lanes and nothing else, and on the lanes of a word it is `decode`: a command
is one bus word, and no narrower access exists (R87, R100). That a decoder is given lists of byte lanes at all, and
rejects the shorter by the name `narrow` and the longer by the name `wide`, is the model's choice (log 16). -/
def Obligations.DecoderTakesWholeWordsOnly : Prop :=
  (∀ w : Word, decodeLanes (lanesOf w) = .ok (decode w))
    ∧ ∀ lanes : List Byte,
        (lanes.length < 4 → decodeLanes lanes = .error .narrow)
          ∧ (4 < lanes.length → decodeLanes lanes = .error .wide)

/-! ## Reset -/

/-- After reset every register and buffer word reads its reset value, and the state that no register shows,
and IRQ, have theirs (R320). -/
def Obligations.ResetStateReadsAsSpecified : Prop :=
  (∀ off, WordOffset off → busRead State.reset.block off =
      if off = 0x000 then 0x50485450#32
      else if off = 0x004 then 0x00010000#32
      else if off = 0x008 then 0x00000160#32
      else if off = 0x044 then 0x00A00100#32
      else 0x00000000#32)
    ∧ State.reset.block.ctrlAlg = 0 ∧ State.reset.block.ctrlDigits = 6 ∧ State.reset.block.ctrlKsrc = true
    ∧ State.reset.block.ctrlIe = false ∧ State.reset.block.busy = false ∧ State.reset.block.pending = 0
    ∧ State.reset.block.done = false ∧ State.reset.block.err = false ∧ State.reset.block.wbusy = false
    ∧ irq State.reset.block = false

/-- The reset input (R321): asserting it at any time gives the reset values and abandons a command in progress;
while it is asserted the values stay and transactions are not answered; after release the block is idle. That an
unanswered transaction is a step with the answer `unanswered`, not a refusal, is the model's choice (log 8), and so
is that a WAIT repeats an unanswered read of STATUS (log 12). -/
def Obligations.ResetAbandonsTheCommand : Prop :=
  (∀ (s : State) (turns : List Turn), s.schedule = .resetPin true :: turns →
      step s = .next { s with block := Block.reset, resetAsserted := true, schedule := turns })
    ∧ (∀ (s : State) (turns : List Turn), s.resetAsserted = true → s.block = Block.reset →
        (s.schedule = .engine :: turns → step s = .next (s.withSchedule turns))
          ∧ (s.schedule = .resetPin false :: turns →
              step s = .next { s with resetAsserted := false, schedule := turns })
          ∧ (∀ (addr : Nat) (size : AccessSize) (rest : List HostStmt), s.schedule = .host :: turns →
              s.program = .read addr size :: rest →
              step s = .next { s with program := rest, schedule := turns, responses := .unanswered :: s.responses })
          ∧ (∀ (addr : Nat) (size : AccessSize) (v : Word) (rest : List HostStmt), s.schedule = .host :: turns →
              s.program = .write addr size v :: rest →
              step s = .next { s with program := rest, schedule := turns, responses := .unanswered :: s.responses })
          ∧ (∀ rest : List HostStmt, s.schedule = .host :: turns → s.program = .wait :: rest →
              step s = .next { s with schedule := turns, responses := .unanswered :: s.responses }))

/-! ## The bus -/

/-- What every offset of the window reads; that an issue changes no value read but those of STATUS, ERROR and
VERDICT; and that a read step changes nothing of the block and answers that value, whether or not a command is in
progress (R33, R47, R81). -/
def Obligations.BusReadReturnsTheStoredValue : Prop :=
  (∀ b : Block,
      busRead b 0x000 = 0x50485450#32 ∧ busRead b 0x004 = 0x00010000#32 ∧ busRead b 0x044 = 0x00A00100#32
      ∧ (busRead b 0x008).toNat =
          b.ctrlAlg.toNat + 16 * b.ctrlDigits.toNat + 256 * b.ctrlKsrc.toNat + 512 * b.ctrlIe.toNat
      ∧ busRead b 0x00C = 0#32
      ∧ (busRead b 0x010).toNat = b.busy.toNat + 2 * b.done.toNat + 4 * b.err.toNat + 8 * b.wbusy.toNat
      ∧ (busRead b 0x014).toNat = b.error.toNat
      ∧ busRead b 0x018 = b.secretLen ∧ busRead b 0x01C = b.keyLen
      ∧ busRead b 0x020 = b.counterHi ∧ busRead b 0x024 = b.counterLo ∧ busRead b 0x028 = b.digestLen
      ∧ (busRead b 0x02C).toNat = b.truncOff.toNat ∧ (busRead b 0x030).toNat = b.truncVal.toNat
      ∧ busRead b 0x034 = b.codeBin ∧ busRead b 0x038 = b.codeLen ∧ busRead b 0x03C = b.candLen
      ∧ (busRead b 0x040).toNat = b.verdict.toNat
      ∧ (∀ k < 2, (busRead b (0x048 + 4 * k)).toNat = intBe (slice b.codeAscii.bytes (4 * k) (4 * k + 4)))
      ∧ (∀ k < 2, (busRead b (0x050 + 4 * k)).toNat = intBe (slice b.cand.bytes (4 * k) (4 * k + 4)))
      ∧ (∀ k < 16, (busRead b (0x080 + 4 * k)).toNat = intBe (slice b.digest.bytes (4 * k) (4 * k + 4)))
      ∧ (∀ k < 64, (busRead b (0x100 + 4 * k)).toNat = intBe (slice b.secret.bytes (4 * k) (4 * k + 4)))
      ∧ (∀ k < 40, (busRead b (0x200 + 4 * k)).toNat = intBe (slice b.key.bytes (4 * k) (4 * k + 4)))
      ∧ (∀ off, WordOffset off → ReservedOffset off → busRead b off = 0#32)
      ∧ (∀ (c : BitVec 8) (off : Nat), WordOffset off → off ≠ 0x010 → off ≠ 0x014 → off ≠ 0x040 →
          busRead (issue c b) off = busRead b off))
    ∧ ∀ (s : State) (off : Nat) (rest : List HostStmt) (turns : List Turn), WordOffset off →
        s.HostAt (readStmt off) rest turns →
        step s = .next { s with
          program := rest
          schedule := turns
          responses := .readData (busRead s.block off) :: s.responses }

/-- A bus write with BUSY = 0 does exactly what R82 says at each offset, leaves every other offset's value and
PENDING alone (CMD apart, which issues), and is taken without an error. -/
def Obligations.IdleWriteStoresExactlyItsRegister : Prop :=
  (∀ (b : Block) (off : Nat) (v : Word), WordOffset off → b.busy = false →
      (WritableWord off → busRead (busWrite off v b) off = v)
      ∧ (off = 0x008 → (busWrite off v b).ctrlAlg = v.extractLsb' 0 2 ∧ (busWrite off v b).ctrlDigits = v.extractLsb' 4 4
          ∧ (busWrite off v b).ctrlKsrc = v.getLsbD 8 ∧ (busWrite off v b).ctrlIe = v.getLsbD 9
          ∧ busRead (busWrite off v b) off = v &&& 0x000003F3#32)
      ∧ (off = 0x010 → busRead (busWrite off v b) off = busRead b off &&& ~~~(v &&& 0x0000000E#32))
      ∧ (off = 0x00C → busWrite off v b =
          { b with pending := v.extractLsb' 0 8, busy := true, done := false, err := false, error := 0, verdict := 0 })
      ∧ (¬WritableWord off → off ≠ 0x008 → off ≠ 0x010 → off ≠ 0x00C → busWrite off v b = b)
      ∧ (off ≠ 0x00C → (busWrite off v b).pending = b.pending
          ∧ ∀ off', WordOffset off' → off' ≠ off → busRead (busWrite off v b) off' = busRead b off'))
    ∧ ∀ (s : State) (off : Nat) (v : Word) (rest : List HostStmt) (turns : List Turn), WordOffset off →
        s.HostAt (writeStmt off v) rest turns →
        step s = .next { s with
          block := busWrite off v s.block
          program := rest
          schedule := turns
          responses := .writeDone :: s.responses }

/-- A bus write with BUSY = 1 changes nothing but WBUSY, STATUS apart, whose W1C bits it clears; so however many
steps the host takes, every operand of the command in progress stays as it was (R83). -/
def Obligations.BusyWriteIsDroppedAndFlagged : Prop :=
  (∀ (b : Block) (off : Nat) (v : Word), WordOffset off → b.busy = true →
      busWrite off v b =
        if off = 0x010 then
          { b with
            done := b.done && !v.getLsbD 1
            err := b.err && !v.getLsbD 2
            wbusy := b.wbusy && !v.getLsbD 3 }
        else { b with wbusy := true })
    ∧ ∀ (k : Nat) (s : State) (turns : List Turn), s.block.busy = true → s.resetAsserted = false →
        s.schedule = List.replicate k .host ++ turns →
        ∃ t, StepsTo k s t ∧ t.schedule = turns ∧ t.resetAsserted = false
          ∧ t.block = { s.block with done := t.block.done, err := t.block.err, wbusy := t.block.wbusy }

/-- The reserved offsets read as zero and ignore writes; a write to one while BUSY = 1 sets WBUSY (R84). -/
def Obligations.ReservedOffsetsReadZeroIgnoreWrites : Prop :=
  ∀ (b : Block) (off : Nat) (v : Word), WordOffset off → ReservedOffset off →
    busRead b off = 0#32
      ∧ (b.busy = false → busWrite off v b = b)
      ∧ (b.busy = true → busWrite off v b = { b with wbusy := true })

/-- A misaligned or narrow transaction inside the window gets a bus error with read data 0 and changes no
register; one outside the window changes no register (R85). That the first is a step and not a refusal, which R85
also allows, and carries read data 0 also for a write, is log 6; that the host's program goes on after a transaction
outside the window is log 7. -/
def Obligations.MisalignedOrNarrowIsABusError : Prop :=
  (∀ (s : State) (off : Nat) (size : AccessSize) (v : Word) (rest : List HostStmt) (turns : List Turn),
      off < 0x400 → size ≠ .word ∨ off % 4 ≠ 0 →
      (s.HostAt (.read (addressOf off) size) rest turns →
          step s = .next { s with program := rest, schedule := turns, responses := .busError 0#32 :: s.responses })
        ∧ (s.HostAt (.write (addressOf off) size v) rest turns →
            step s = .next { s with program := rest, schedule := turns, responses := .busError 0#32 :: s.responses }))
    ∧ ∀ (s : State) (addr : Nat) (size : AccessSize) (v : Word) (rest : List HostStmt) (turns : List Turn),
        addr < Config.base ∨ Config.base + 0x400 ≤ addr →
        s.HostAt (.read addr size) rest turns ∨ s.HostAt (.write addr size v) rest turns →
        ∃ t, step s = .next t ∧ t.block = s.block ∧ t.program = rest

/-- Every write but one to CMD can be repeated: the second leaves the state as the first did (R88). -/
def Obligations.RepeatedWriteChangesNothing : Prop :=
  ∀ (b : Block) (off : Nat) (v : Word), WordOffset off → off ≠ 0x00C →
    busWrite off v (busWrite off v b) = busWrite off v b

/-- The words that the host-program statement WBYTES writes leave exactly the given bytes at the start of the
buffer SECRET, and keep the bytes beyond the last word (R111). -/
def Obligations.WbytesFillsTheSecret : Prop :=
  ∀ (s : State) (bytes : List Byte), bytes.length ≤ 256 → s.block.busy = false → s.resetAsserted = false →
    s.schedule = [] → s.program = bytesStmts 0x100 bytes →
    ∃ t, StepsTo s.program.length s t ∧ t.program = []
      ∧ (∀ i < bytes.length, t.block.secret.byte i = bytes.getD i 0#8)
      ∧ (∀ i, bytes.length ≤ i → i < 4 * ((bytes.length + 3) / 4) → t.block.secret.byte i = 0#8)
      ∧ (∀ i, 4 * ((bytes.length + 3) / 4) ≤ i → t.block.secret.byte i = s.block.secret.byte i)
      ∧ { t.block with secret := s.block.secret } = s.block

/-! ## The sequencer and the interrupt -/

/-- When the engine moves on a command in progress, the step is the completion of the command that PENDING
decodes to; and a command word placed by `withFetchWord` is run by the very next step (R31, R46; that placing
stands for the issue is log 3). -/
def Obligations.StepRunsThePendingCommand : Prop :=
  (∀ (s : State) (turns : List Turn), s.EngineAt turns →
      step s = exec (decodeCode s.block.pending) (s.withSchedule turns))
    ∧ ∀ (s : State) (nbits w : Nat) (i : Instr), decodeTableWord nbits w = some i →
        step (s.withFetchWord nbits w) =
          exec i { s with block := issue (encodeCode i) s.block, resetAsserted := false }

/-- The sequencer leaves idle only by a CMD write of the host, and returns to idle only by the completion of the
command in progress or by reset (R31, R321). -/
def Obligations.BusyChangesOnlyByIssueCompletionOrReset : Prop :=
  ∀ s t : State, step s = .next t →
    (s.block.busy = false → t.block.busy = true →
        ∃ v rest, s.program = writeStmt 0x00C v :: rest ∧ t.block = issue (v.extractLsb' 0 8) s.block)
      ∧ (s.block.busy = true → t.block.busy = false →
          (∃ turns, exec (decodeCode s.block.pending) (s.withSchedule turns) = .next t)
            ∨ (t.block = Block.reset ∧ t.resetAsserted = true))

/-- IRQ is bit IE of CTRL and bit DONE of STATUS, as a bus read shows them, and nothing else (R50). -/
def Obligations.IrqIsEnableAndDone : Prop :=
  ∀ b : Block, irq b = ((busRead b 0x008).getLsbD 9 && (busRead b 0x010).getLsbD 1)

/-- IRQ rises only at a completion or by enabling it over a DONE that already stands; a completion asserts it,
with or without an error, exactly when IE = 1; clearing DONE, the next issue and IE = 0 take it away, and the
last leaves DONE (R300). -/
def Obligations.IrqFollowsCompletion : Prop :=
  (∀ s t : State, step s = .next t → irq s.block = false → irq t.block = true →
      (s.block.busy = true ∧ ∃ turns, exec (decodeCode s.block.pending) (s.withSchedule turns) = .next t)
        ∨ (s.block.ctrlIe = false ∧ s.block.done = true ∧ t.block.ctrlIe = true))
    ∧ (∀ (i : Instr) (s t : State), exec i s = .next t → irq t.block = s.block.ctrlIe)
    ∧ (∀ (b : Block) (v : Word), v.getLsbD 1 = true → irq (busWrite 0x010 v b) = false)
    ∧ (∀ (b : Block) (v : Word), b.busy = false → irq (busWrite 0x00C v b) = false)
    ∧ (∀ (b : Block) (v : Word), b.busy = false → v.getLsbD 9 = false →
        irq (busWrite 0x008 v b) = false ∧ (busWrite 0x008 v b).done = b.done)

/-- With nothing to perform and no command in progress, a step leaves the whole machine as it is (R308). -/
def Obligations.IdleBlockKeepsEveryRegister : Prop :=
  ∀ s : State, s.block.busy = false → s.program = [] →
    (s.schedule = [] → step s = .next s)
      ∧ ∀ turns, s.schedule = .host :: turns ∨ s.schedule = .engine :: turns → step s = .next (s.withSchedule turns)

/-! ## Every completion -/

/-- Every command, on every state, completes in one step that clears BUSY, sets DONE, and sets ERR exactly
when it reports an error; CTRL, WBUSY, PENDING, SECRET's host registers (ZEROIZE apart) and everything outside the
block stay as they are (R46, R102). -/
def Obligations.EveryCommandCompletes : Prop :=
  ∀ (i : Instr) (s : State), ∃ t, exec i s = .next t
    ∧ t.block.busy = false ∧ t.block.done = true ∧ (t.block.err = true ↔ t.block.error ≠ 0)
    ∧ t.block.ctrlAlg = s.block.ctrlAlg ∧ t.block.ctrlDigits = s.block.ctrlDigits
    ∧ t.block.ctrlKsrc = s.block.ctrlKsrc ∧ t.block.ctrlIe = s.block.ctrlIe
    ∧ t.block.wbusy = s.block.wbusy ∧ t.block.pending = s.block.pending
    ∧ (i ≠ .zeroize → t.block.secret = s.block.secret ∧ t.block.secretLen = s.block.secretLen
        ∧ t.block.counterHi = s.block.counterHi ∧ t.block.counterLo = s.block.counterLo
        ∧ t.block.cand = s.block.cand ∧ t.block.candLen = s.block.candLen)
    ∧ t.resetAsserted = s.resetAsserted ∧ t.program = s.program ∧ t.schedule = s.schedule
    ∧ t.responses = s.responses

/-- An error writes exactly ERROR, BUSY, DONE and ERR, and no result of the failing command is visible: every
other register and buffer keeps its value, so VERDICT still reads the 0 that issue set (R292). -/
def Obligations.ErrorIsPrecise : Prop :=
  (∀ (i : Instr) (s t : State), exec i s = .next t → t.block.error ≠ 0 →
      t = s.withBlock { s.block with error := t.block.error, busy := false, done := true, err := true })
    ∧ ∀ (i : Instr) (s t : State), commandAlone i s = .next t → t.block.error ≠ 0 → t.block.verdict = 0

/-- The error a command reports is the first check that fails in the order of R291. -/
def Obligations.FirstFailingCheckIsReported : Prop :=
  ∀ s : State,
    (∀ t, exec .decode s = .next t → t.block.error =
        firstFailing [(decide (s.block.secretLen.toNat > 256), 1), (badChar s.block, 2)])
    ∧ (∀ t, exec .hmac s = .next t → t.block.error =
        firstFailing [(decide (s.block.keyLen.toNat > 160), 1), (s.block.ctrlAlg == 3, 4)])
    ∧ (∀ t, exec .trunc s = .next t → t.block.error =
        firstFailing [(decide (s.block.ctrlDigits.toNat < 6 ∨ 8 < s.block.ctrlDigits.toNat), 3),
          (s.block.digestLen == 0, 7)])
    ∧ (∀ t, exec .compare s = .next t ∨ exec .zeroize s = .next t → t.block.error = 0)
    ∧ (∀ t, exec .generate s = .next t ∨ exec .verify s = .next t → t.block.error =
        firstFailing (generateChecklist s.block))
    ∧ (∀ (c : BitVec 8) (t : State), c = 0 ∨ 8 ≤ c.toNat → exec (decodeCode c) s = .next t → t.block.error = 6)

/-- After an error the host returns to normal by clearing DONE and ERR in STATUS, or by the next issue, which
clears ERROR, DONE, ERR and VERDICT; and the same command issued again with the same operands reports the same
error (R294). -/
def Obligations.ErrorIsClearedByStatusOrIssueAndRepeats : Prop :=
  (∀ b : Block, busWrite 0x010 0x00000006#32 b = { b with done := false, err := false })
    ∧ (∀ (b : Block) (v : Word), b.busy = false →
        (busWrite 0x00C v b).error = 0 ∧ (busWrite 0x00C v b).done = false ∧ (busWrite 0x00C v b).err = false
          ∧ (busWrite 0x00C v b).verdict = 0)
    ∧ ∀ (i : Instr) (s t u : State), commandAlone i s = .next t → t.block.error ≠ 0 →
        commandAlone i t = .next u → u.block.error = t.block.error

/-! ## What each command writes and reads (R102) -/

/-- The frame of the single-unit commands: DECODE writes KEY and KEY_LEN, HMAC writes DIGEST and DIGEST_LEN, TRUNC
writes TRUNC_OFF, TRUNC_VAL, CODE_BIN, CODE_LEN and CODE_ASCII, COMPARE writes VERDICT; beside them only ERROR,
BUSY, DONE and ERR. -/
def Obligations.FrameOfTheUnitCommands : Prop :=
  ∀ s t : State,
    (exec .decode s = .next t → t = s.withBlock { s.block with
        key := t.block.key, keyLen := t.block.keyLen
        error := t.block.error, busy := false, done := true, err := t.block.err })
    ∧ (exec .hmac s = .next t → t = s.withBlock { s.block with
        digest := t.block.digest, digestLen := t.block.digestLen
        error := t.block.error, busy := false, done := true, err := t.block.err })
    ∧ (exec .trunc s = .next t → t = s.withBlock { s.block with
        truncOff := t.block.truncOff, truncVal := t.block.truncVal, codeBin := t.block.codeBin
        codeLen := t.block.codeLen, codeAscii := t.block.codeAscii
        error := t.block.error, busy := false, done := true, err := t.block.err })
    ∧ (exec .compare s = .next t → t = s.withBlock { s.block with
        verdict := t.block.verdict, error := 0, busy := false, done := true, err := false })

/-- The frame of GENERATE and VERIFY: the digest and code registers, KEY and KEY_LEN only with KSRC = 1, VERDICT
only by VERIFY; beside them only ERROR, BUSY, DONE and ERR. -/
def Obligations.FrameOfTheCompositeCommands : Prop :=
  ∀ s t : State,
    (exec .generate s = .next t → t = s.withBlock { s.block with
        key := if s.block.ctrlKsrc then t.block.key else s.block.key
        keyLen := if s.block.ctrlKsrc then t.block.keyLen else s.block.keyLen
        digest := t.block.digest, digestLen := t.block.digestLen
        truncOff := t.block.truncOff, truncVal := t.block.truncVal, codeBin := t.block.codeBin
        codeLen := t.block.codeLen, codeAscii := t.block.codeAscii
        error := t.block.error, busy := false, done := true, err := t.block.err })
    ∧ (exec .verify s = .next t → t = s.withBlock { s.block with
        key := if s.block.ctrlKsrc then t.block.key else s.block.key
        keyLen := if s.block.ctrlKsrc then t.block.keyLen else s.block.keyLen
        digest := t.block.digest, digestLen := t.block.digestLen
        truncOff := t.block.truncOff, truncVal := t.block.truncVal, codeBin := t.block.codeBin
        codeLen := t.block.codeLen, codeAscii := t.block.codeAscii, verdict := t.block.verdict
        error := t.block.error, busy := false, done := true, err := t.block.err })

/-- The single-unit commands read nothing but their operands: on two machines that agree on them, however else
they differ, a command reports the same error and, without one, writes the same results. So DECODE reads no SECRET
byte at or above SECRET_LEN, HMAC no KEY byte at or above KEY_LEN, and TRUNC does not read CTRL.ALG. -/
def Obligations.UnitCommandsReadOnlyTheirOperands : Prop :=
  ∀ s u t v : State,
    (SameDecodeOperands s.block u.block → exec .decode s = .next t → exec .decode u = .next v →
        t.block.error = v.block.error ∧ (t.block.error = 0 → SameKey t.block v.block))
    ∧ (SameHmacOperands s.block u.block → exec .hmac s = .next t → exec .hmac u = .next v →
        t.block.error = v.block.error ∧ (t.block.error = 0 → SameDigest t.block v.block))
    ∧ (SameTruncOperands s.block u.block → exec .trunc s = .next t → exec .trunc u = .next v →
        t.block.error = v.block.error ∧ (t.block.error = 0 → SameCode t.block v.block))
    ∧ (s.block.candLen = u.block.candLen → s.block.cand = u.block.cand → s.block.codeLen = u.block.codeLen →
        s.block.codeAscii = u.block.codeAscii → exec .compare s = .next t → exec .compare u = .next v →
        t.block.verdict = v.block.verdict)

/-- GENERATE is a function of its operands alone (R263): on two machines that agree on them it reports the same
error and, without one, writes equal results. -/
def Obligations.GenerateIsAFunctionOfItsOperands : Prop :=
  ∀ s u t v : State, SameGenerateOperands s.block u.block →
    exec .generate s = .next t → exec .generate u = .next v →
    t.block.error = v.block.error
      ∧ (t.block.error = 0 → SameDigest t.block v.block ∧ SameCode t.block v.block
          ∧ (s.block.ctrlKsrc = true → SameKey t.block v.block))

/-! ## The base32 decoder and DECODE -/

/-- The value of every character (R130): position in the alphabet, in either case, and none for every other byte. -/
def Obligations.AlphabetValuesAreThePositions : Prop :=
  (∀ v < 26, b32val (BitVec.ofNat 8 (0x41 + v)) = some v ∧ b32val (BitVec.ofNat 8 (0x61 + v)) = some v)
    ∧ (∀ v, 26 ≤ v → v < 32 → b32val (BitVec.ofNat 8 (0x32 + (v - 26))) = some v)
    ∧ ∀ c : Byte, ¬(0x41 ≤ c.toNat ∧ c.toNat ≤ 0x5A) → ¬(0x61 ≤ c.toNat ∧ c.toNat ≤ 0x7A) →
        ¬(0x32 ≤ c.toNat ∧ c.toNat ≤ 0x37) → b32val c = none

/-- `b32decode` fails exactly where a character is outside the alphabet. Otherwise its output has floor(5n/8) bytes,
and its bits are those of the characters' values in order, five a character, most significant first, with the bits
left at the end discarded whatever they are; so strings in either case, and strings that differ only in discarded
bits, decode to the same bytes (R131, R133; the bit order of R132 is marked there as general knowledge). -/
def Obligations.DecoderKeepsTheBitsInOrder : Prop :=
  (∀ s : List Byte, b32decode s = none ↔ ∃ c ∈ s, b32val c = none)
    ∧ (∀ s k : List Byte, b32decode s = some k →
        k.length = 5 * s.length / 8
          ∧ k.flatMap byteBits = (symbolBits (s.map fun c => (b32val c).getD 0)).take (8 * (5 * s.length / 8)))
    ∧ ∀ vs : List Nat, (∀ v ∈ vs, v < 32) →
        (b32emit 0 0 vs).flatMap byteBits = (symbolBits vs).take (8 * (5 * vs.length / 8))

/-- DECODE of the unpadded base32 encoding of any byte string of at most 160 bytes gives that string back in KEY
and its length in KEY_LEN (R135). -/
def Obligations.DecodeInvertsEncode : Prop :=
  ∀ (s : State) (bytes : List Byte), bytes.length ≤ 160 →
    s.block.secretLen.toNat = (b32encode bytes).length →
    s.block.secret.bytes.take s.block.secretLen.toNat = b32encode bytes →
    ∃ t, exec .decode s = .next t ∧ t.block.error = 0 ∧ t.block.keyLen.toNat = bytes.length
      ∧ t.block.key.bytes.take bytes.length = bytes

/-- DECODE (R134): InvalidLength above the capacity; InvalidCharset where a character of SECRET[0..SECRET_LEN) is
outside the alphabet; otherwise KEY takes the decoded bytes with zeros after them and KEY_LEN their number. -/
def Obligations.DecodeCommandResult : Prop :=
  ∀ s : State,
    (s.block.secretLen.toNat > 256 →
        exec .decode s = .next (s.withBlock { s.block with error := 1, busy := false, done := true, err := true }))
    ∧ (s.block.secretLen.toNat ≤ 256 → (∃ i < s.block.secretLen.toNat, b32val (s.block.secret.byte i) = none) →
        exec .decode s = .next (s.withBlock { s.block with error := 2, busy := false, done := true, err := true }))
    ∧ (s.block.secretLen.toNat ≤ 256 → (∀ i < s.block.secretLen.toNat, b32val (s.block.secret.byte i) ≠ none) →
        ∃ k : List Byte, b32decode (s.block.secret.bytes.take s.block.secretLen.toNat) = some k
          ∧ k.length = 5 * s.block.secretLen.toNat / 8
          ∧ exec .decode s = .next (s.withBlock { s.block with
              key := Buf.ofBytes 160 k
              keyLen := BitVec.ofNat 32 (5 * s.block.secretLen.toNat / 8)
              error := 0, busy := false, done := true, err := false }))

/-! ## The counter packer, the hashes and HMAC -/

/-- The counter packer (R150): 8 bytes, byte i is (C >> 8(7 - i)) & 0xFF, COUNTER_HI before COUNTER_LO, and the
integer they write is C. -/
def Obligations.CounterMessageIsBigEndian : Prop :=
  ∀ b : Block,
    (counterMessage b).length = 8
      ∧ (∀ i < 8, ((counterMessage b).getD i 0#8).toNat =
          ((b.counterHi.toNat * 2 ^ 32 + b.counterLo.toNat) >>> (8 * (7 - i))) &&& 0xFF)
      ∧ counterMessage b = be 4 b.counterHi.toNat ++ be 4 b.counterLo.toNat
      ∧ intBe (counterMessage b) = b.counterHi.toNat * 2 ^ 32 + b.counterLo.toNat

/-- Padding (R161): the message, the byte 0x80, z zeros and the big-endian bit length, with z the least number that
makes a whole number of blocks, for the 64-byte and the 128-byte block. -/
def Obligations.PaddingIsTheLeastToAWholeBlock : Prop :=
  ∀ (m : List Byte) (block field : Nat), (block = 64 ∧ field = 8) ∨ (block = 128 ∧ field = 16) →
    ∃ z, padMessage block field m = m ++ [0x80#8] ++ List.replicate z 0#8 ++ be field (8 * m.length)
      ∧ (padMessage block field m).length % block = 0
      ∧ ∀ z' < z, (m.length + 1 + z' + field) % block ≠ 0

/-- The message schedules (R165, R173, R178): the block's sixteen words, then each word by its recurrence on the
words before it, one word for every round. -/
def Obligations.SchedulesFollowTheirRecurrence : Prop :=
  (∀ m : List (BitVec 32), m.length = 16 →
      (sha1Schedule m).length = 80
        ∧ (∀ t < 16, (sha1Schedule m).getD t 0 = m.getD t 0)
        ∧ ∀ t, 16 ≤ t → t < 80 → (sha1Schedule m).getD t 0 =
            rotl ((sha1Schedule m).getD (t - 3) 0 ^^^ (sha1Schedule m).getD (t - 8) 0
              ^^^ (sha1Schedule m).getD (t - 14) 0 ^^^ (sha1Schedule m).getD (t - 16) 0) 1)
    ∧ (∀ m : List (BitVec 32), m.length = 16 →
        (sha2Schedule sha256Params m).length = 64
          ∧ (∀ t < 16, (sha2Schedule sha256Params m).getD t 0 = m.getD t 0)
          ∧ ∀ t, 16 ≤ t → t < 64 → (sha2Schedule sha256Params m).getD t 0 =
              sha256Params.smallSigma1 ((sha2Schedule sha256Params m).getD (t - 2) 0)
                + (sha2Schedule sha256Params m).getD (t - 7) 0
                + sha256Params.smallSigma0 ((sha2Schedule sha256Params m).getD (t - 15) 0)
                + (sha2Schedule sha256Params m).getD (t - 16) 0)
    ∧ (∀ m : List (BitVec 64), m.length = 16 →
        (sha2Schedule sha512Params m).length = 80
          ∧ (∀ t < 16, (sha2Schedule sha512Params m).getD t 0 = m.getD t 0)
          ∧ ∀ t, 16 ≤ t → t < 80 → (sha2Schedule sha512Params m).getD t 0 =
              sha512Params.smallSigma1 ((sha2Schedule sha512Params m).getD (t - 2) 0)
                + (sha2Schedule sha512Params m).getD (t - 7) 0
                + sha512Params.smallSigma0 ((sha2Schedule sha512Params m).getD (t - 15) 0)
                + (sha2Schedule sha512Params m).getD (t - 16) 0)

/-- Every digest and every HMAC has its algorithm's length: 20, 32 or 64 bytes (R181). -/
def Obligations.DigestLengthIsTheAlgorithms : Prop :=
  ∀ (a : Alg) (key text : List Byte),
    (a.hash text).length = (match a with | .sha1 => 20 | .sha256 => 32 | .sha512 => 64)
      ∧ (hmac a key text).length = (match a with | .sha1 => 20 | .sha256 => 32 | .sha512 => 64)

/-- The construction of HMAC (R185), with H, B and L of the algorithm (R181): K0 is the key, hashed first where it
is longer than B, filled with zero bytes to B bytes; the inner hash is over K0 XOR 0x36 and the text, the outer one
over K0 XOR 0x5C and the inner. So a key longer than B acts as its hash, and zero bytes added to a shorter one, up to
B, change nothing. -/
def Obligations.HmacKeyIsHashedOrZeroFilled : Prop :=
  (∀ (a : Alg) (H : List Byte → List Byte) (B L : Nat) (key text K0 : List Byte),
      (a = .sha1 ∧ H = sha1 ∧ B = 64 ∧ L = 20) ∨ (a = .sha256 ∧ H = sha256 ∧ B = 64 ∧ L = 32)
        ∨ (a = .sha512 ∧ H = sha512 ∧ B = 128 ∧ L = 64) →
      K0 = (if key.length > B then H key ++ List.replicate (B - L) 0x00#8
        else key ++ List.replicate (B - key.length) 0x00#8) →
      K0.length = B
        ∧ hmac a key text =
          H (K0.zipWith (· ^^^ ·) (List.replicate B 0x5C#8)
            ++ H (K0.zipWith (· ^^^ ·) (List.replicate B 0x36#8) ++ text)))
    ∧ ∀ (a : Alg) (key text : List Byte),
      (key.length > a.blockBytes → hmac a key text = hmac a (a.hash key) text)
        ∧ (∀ z, key.length + z ≤ a.blockBytes → hmac a (key ++ List.replicate z 0#8) text = hmac a key text)

/-- HMAC (R200): InvalidLength above 160 key bytes; UnsupportedAlgorithm with ALG = 3; otherwise DIGEST takes the
HMAC of the packed counter under KEY[0..KEY_LEN) with zeros after it, and DIGEST_LEN the algorithm's length. -/
def Obligations.HmacCommandResult : Prop :=
  ∀ s : State,
    (s.block.keyLen.toNat > 160 →
        exec .hmac s = .next (s.withBlock { s.block with error := 1, busy := false, done := true, err := true }))
    ∧ (s.block.keyLen.toNat ≤ 160 → s.block.ctrlAlg = 3 →
        exec .hmac s = .next (s.withBlock { s.block with error := 4, busy := false, done := true, err := true }))
    ∧ ∀ (a : Alg) (len : Word), s.block.keyLen.toNat ≤ 160 →
        (s.block.ctrlAlg = 0 ∧ a = .sha1 ∧ len = 20) ∨ (s.block.ctrlAlg = 1 ∧ a = .sha256 ∧ len = 32)
          ∨ (s.block.ctrlAlg = 2 ∧ a = .sha512 ∧ len = 64) →
        exec .hmac s = .next (s.withBlock { s.block with
          digest := Buf.ofBytes 64 (hmac a (s.block.key.bytes.take s.block.keyLen.toNat)
            (be 8 (s.block.counterHi.toNat * 2 ^ 32 + s.block.counterLo.toNat)))
          digestLen := len
          error := 0, busy := false, done := true, err := false })

/-- On the bus, DIGEST word k reads as the SHA-1 or SHA-256 hash word H_k, and for SHA-512 words 2k and 2k+1 read as
the high and low halves of H_k, for every k from 0 to 7 (R86c with R48). -/
def Obligations.DigestWordsReadAsHashWords : Prop :=
  (∀ (b : Block) (h : Sha1State), b.digest = Buf.ofBytes 64 (sha1Bytes h) →
      busRead b 0x080 = h.a ∧ busRead b 0x084 = h.b ∧ busRead b 0x088 = h.c ∧ busRead b 0x08C = h.d
        ∧ busRead b 0x090 = h.e)
    ∧ (∀ (b : Block) (h : Sha2State 32), b.digest = Buf.ofBytes 64 (sha2Bytes 4 h) →
        busRead b 0x080 = h.a ∧ busRead b 0x084 = h.b ∧ busRead b 0x088 = h.c ∧ busRead b 0x08C = h.d
          ∧ busRead b 0x090 = h.e ∧ busRead b 0x094 = h.f ∧ busRead b 0x098 = h.g ∧ busRead b 0x09C = h.h)
    ∧ (∀ (b : Block) (h : Sha2State 64), b.digest = Buf.ofBytes 64 (sha2Bytes 8 h) →
        ∀ (k : Nat) (w : BitVec 64), [h.a, h.b, h.c, h.d, h.e, h.f, h.g, h.h][k]? = some w →
          busRead b (0x080 + 8 * k) = w.extractLsb' 32 32 ∧ busRead b (0x084 + 8 * k) = w.extractLsb' 0 32)

/-! ## Truncation and TRUNC -/

/-- The offset is the low 4 bits of the last digest byte, which is the last hex digit of the digest; the window is
the four bytes from that byte index, inside the digest; the value is its low 31 bits (R221, R222, R223). -/
def Obligations.TruncationFollowsTheByteOffset : Prop :=
  ∀ d : List Byte, d.length = 20 ∨ d.length = 32 ∨ d.length = 64 →
    (truncOffset d).toNat = (d.getD (d.length - 1) 0#8).toNat &&& 0x0F
      ∧ (hexDigits d).getLast? = some (truncOffset d).toNat
      ∧ (truncOffset d).toNat + 3 ≤ 18
      ∧ truncWindow d = (d.getD (truncOffset d).toNat 0#8).toNat * 2 ^ 24
          + (d.getD ((truncOffset d).toNat + 1) 0#8).toNat * 2 ^ 16
          + (d.getD ((truncOffset d).toNat + 2) 0#8).toNat * 2 ^ 8
          + (d.getD ((truncOffset d).toNat + 3) 0#8).toNat
      ∧ truncValue d = truncWindow d &&& 0x7FFFFFFF ∧ truncValue d ≤ 2 ^ 31 - 1

/-- TRUNC (R224): InvalidDigits for DIGITS outside 6 to 8, then NoDigest with DIGEST_LEN = 0; otherwise the offset, the
31-bit value, the code, its length and its ASCII form, from the bytes of DIGEST. -/
def Obligations.TruncCommandResult : Prop :=
  ∀ s : State,
    (s.block.ctrlDigits.toNat < 6 ∨ 8 < s.block.ctrlDigits.toNat →
        exec .trunc s = .next (s.withBlock { s.block with error := 3, busy := false, done := true, err := true }))
    ∧ (6 ≤ s.block.ctrlDigits.toNat → s.block.ctrlDigits.toNat ≤ 8 → s.block.digestLen = 0 →
        exec .trunc s = .next (s.withBlock { s.block with error := 7, busy := false, done := true, err := true }))
    ∧ ∀ (d off value code : Nat), d = s.block.ctrlDigits.toNat → 6 ≤ d → d ≤ 8 →
        s.block.digestLen = 20 ∨ s.block.digestLen = 32 ∨ s.block.digestLen = 64 →
        off = (s.block.digest.byte (s.block.digestLen.toNat - 1)).toNat % 16 →
        value = ((s.block.digest.byte off).toNat * 2 ^ 24 + (s.block.digest.byte (off + 1)).toNat * 2 ^ 16
          + (s.block.digest.byte (off + 2)).toNat * 2 ^ 8 + (s.block.digest.byte (off + 3)).toNat) % 2 ^ 31 →
        code = value % 10 ^ d →
        exec .trunc s = .next (s.withBlock { s.block with
          truncOff := BitVec.ofNat 4 off
          truncVal := BitVec.ofNat 31 value
          codeBin := BitVec.ofNat 32 code
          codeLen := BitVec.ofNat 32 d
          codeAscii := Buf.ofBytes 8 ((List.range d).map fun j => BitVec.ofNat 8 (0x30 + code / 10 ^ (d - 1 - j) % 10))
          error := 0, busy := false, done := true, err := false })

/-- After a TRUNC, GENERATE or VERIFY without error, CODE_LEN is DIGITS, CODE_ASCII holds that many decimal digits and
then zero bytes, and CODE_BIN is the number they write, below 10^DIGITS (R226, R43). -/
def Obligations.CodeHasExactlyDigitsDigits : Prop :=
  ∀ (i : Instr) (s t : State), i = .trunc ∨ i = .generate ∨ i = .verify → exec i s = .next t → t.block.error = 0 →
    t.block.codeLen.toNat = s.block.ctrlDigits.toNat
      ∧ (∀ j < s.block.ctrlDigits.toNat, 0x30 ≤ (t.block.codeAscii.byte j).toNat ∧ (t.block.codeAscii.byte j).toNat ≤ 0x39)
      ∧ (∀ j, s.block.ctrlDigits.toNat ≤ j → t.block.codeAscii.byte j = 0#8)
      ∧ t.block.codeBin.toNat = asciiValue (t.block.codeAscii.bytes.take s.block.ctrlDigits.toNat)
      ∧ t.block.codeBin.toNat < 10 ^ s.block.ctrlDigits.toNat

/-! ## The comparator and COMPARE -/

/-- COMPARE (R240, R242): always without error, VALID exactly when the code's length is 6, 7 or 8, CAND_LEN equals it,
and the characters below it are equal, and INVALID in every other case. -/
def Obligations.CompareCommandResult : Prop :=
  ∀ s : State,
    (CandidateIsCode s.block →
        exec .compare s = .next (s.withBlock { s.block with
          verdict := 1, error := 0, busy := false, done := true, err := false }))
    ∧ (¬CandidateIsCode s.block →
        exec .compare s = .next (s.withBlock { s.block with
          verdict := 2, error := 0, busy := false, done := true, err := false }))

/-- The fixed-schedule form of the comparison, with no early exit, gives the result of the defining form wherever
the code registers describe a code or none (R241). -/
def Obligations.FixedScheduleComparesTheSame : Prop :=
  ∀ b : Block, b.CodeInv → codeMatchesFixed b = codeMatches b

/-- A candidate of any length, written as R243 tells the host, matches exactly when it is the code as a string. That
both CAND words are written, with 0x00 in the bytes above a short candidate and CAND_LEN after them, is the model's
choice (log 17). -/
def Obligations.HostCandidateMatchesAsAString : Prop :=
  ∀ (b : Block) (cand : List Byte), b.busy = false → b.CodeInv →
    (codeMatches
        (busWrite 0x03C (candidateLen cand)
          (busWrite 0x054 ((candidateBuf cand).word 1) (busWrite 0x050 ((candidateBuf cand).word 0) b))) = true
      ↔ b.codeLen ≠ 0 ∧ cand = b.codeAscii.bytes.take b.codeLen.toNat)

/-! ## GENERATE and VERIFY -/

/-- GENERATE (R261): where a check fails, the first failing one's error and nothing else. Otherwise, and then only,
the operands pass every check, and with KSRC = 1 KEY takes the decoded key, DIGEST the HMAC of the packed counter
under the key, and the code registers the truncation of that digest to DIGITS digits. -/
def Obligations.GenerateCommandResult : Prop :=
  ∀ s : State,
    (∀ e, e = firstFailing (generateChecklist s.block) → e ≠ 0 →
        exec .generate s = .next (s.withBlock { s.block with error := e, busy := false, done := true, err := true }))
    ∧ (firstFailing (generateChecklist s.block) = 0 ↔ ∃ key a, GenerateReady s.block key a)
    ∧ ∀ (key dg : List Byte) (a : Alg), GenerateReady s.block key a →
        dg = hmac a key (be 8 (s.block.counterHi.toNat * 2 ^ 32 + s.block.counterLo.toNat)) →
        exec .generate s = .next (s.withBlock { s.block with
          key := if s.block.ctrlKsrc then Buf.ofBytes 160 key else s.block.key
          keyLen := if s.block.ctrlKsrc then BitVec.ofNat 32 (5 * s.block.secretLen.toNat / 8) else s.block.keyLen
          digest := Buf.ofBytes 64 dg
          digestLen := (match a with | .sha1 => 20 | .sha256 => 32 | .sha512 => 64)
          truncOff := truncOffset dg
          truncVal := BitVec.ofNat 31 (truncValue dg)
          codeBin := BitVec.ofNat 32 (truncValue dg % 10 ^ s.block.ctrlDigits.toNat)
          codeLen := s.block.ctrlDigits.setWidth 32
          codeAscii := Buf.ofBytes 8
            (decimalAscii (truncValue dg % 10 ^ s.block.ctrlDigits.toNat) s.block.ctrlDigits.toNat)
          error := 0, busy := false, done := true, err := false })

/-- A GENERATE without error leaves the machine as DECODE (with KSRC = 1), HMAC and TRUNC in turn leave it, each
without error; they differ only in PENDING, the code of the last command issued (R262). -/
def Obligations.GenerateEqualsItsUnitsInTurn : Prop :=
  ∀ s t : State, commandAlone .generate s = .next t → t.block.error = 0 →
    (s.block.ctrlKsrc = true → ∃ t₁ t₂ t₃, commandAlone .decode s = .next t₁ ∧ t₁.block.error = 0
        ∧ commandAlone .hmac t₁ = .next t₂ ∧ t₂.block.error = 0
        ∧ commandAlone .trunc t₂ = .next t₃ ∧ t₃ = t.withBlock { t.block with pending := 0x03#8 })
    ∧ (s.block.ctrlKsrc = false → ∃ t₂ t₃, commandAlone .hmac s = .next t₂ ∧ t₂.block.error = 0
        ∧ commandAlone .trunc t₂ = .next t₃ ∧ t₃ = t.withBlock { t.block with pending := 0x03#8 })

/-- VERIFY (R265): on every state, GENERATE and VERIFY answer next states; with an error VERIFY's is GENERATE's, and
without one it is GENERATE's with VERDICT set by the comparison on the new code. -/
def Obligations.VerifyIsGenerateThenCompare : Prop :=
  ∀ s : State, ∃ t v, exec .generate s = .next t ∧ exec .verify s = .next v
    ∧ (t.block.error ≠ 0 → v = t)
    ∧ (t.block.error = 0 → CandidateIsCode t.block → v = t.withBlock { t.block with verdict := 1 })
    ∧ (t.block.error = 0 → ¬CandidateIsCode t.block → v = t.withBlock { t.block with verdict := 2 })

/-- VERIFY on operands that pass every check completes without error, and its verdict is VALID exactly when the
candidate is the code that GENERATE writes on the same operands; a candidate of another length than DIGITS is INVALID
(R265, R266). -/
def Obligations.VerifyAcceptsExactlyTheGeneratedCode : Prop :=
  ∀ (s : State) (key : List Byte) (a : Alg), GenerateReady s.block key a →
    ∃ t v, exec .generate s = .next t ∧ exec .verify s = .next v ∧ v.block.error = 0
      ∧ v.block.codeAscii = t.block.codeAscii ∧ v.block.codeLen = t.block.codeLen
      ∧ (v.block.verdict = 1 ∨ v.block.verdict = 2)
      ∧ (v.block.verdict = 1 ↔ s.block.candLen = t.block.codeLen
          ∧ s.block.cand.bytes.take t.block.codeLen.toNat = t.block.codeAscii.bytes.take t.block.codeLen.toNat)
      ∧ (s.block.candLen.toNat ≠ s.block.ctrlDigits.toNat → v.block.verdict = 2)

/-! ## ZEROIZE and the illegal codes -/

/-- ZEROIZE (R270): every data register and buffer takes its reset value; CTRL, WBUSY and PENDING keep theirs. After
it a TRUNC with legal DIGITS reports NoDigest and a COMPARE gives INVALID. -/
def Obligations.ZeroizeClearsEveryDataRegister : Prop :=
  ∀ s : State, ∃ t, exec .zeroize s = .next t
    ∧ t = s.withBlock { Block.reset with
        ctrlAlg := s.block.ctrlAlg, ctrlDigits := s.block.ctrlDigits, ctrlKsrc := s.block.ctrlKsrc
        ctrlIe := s.block.ctrlIe, wbusy := s.block.wbusy, pending := s.block.pending
        busy := false, done := true, err := false, error := 0 }
    ∧ (6 ≤ s.block.ctrlDigits.toNat → s.block.ctrlDigits.toNat ≤ 8 →
        ∃ u, commandAlone .trunc t = .next u ∧ u.block.error = 7)
    ∧ ∃ u, commandAlone .compare t = .next u ∧ u.block.error = 0 ∧ u.block.verdict = 2

/-- Every illegal code, 0x00 and 0x08 to 0xFF, and every illegal term of the syntax, completes with IllegalCommand and
changes no register but ERROR, BUSY, DONE and ERR (R104, R275). -/
def Obligations.IllegalCodesRaiseIllegalCommand : Prop :=
  ∀ s : State,
    (∀ c : BitVec 8, c = 0 ∨ 8 ≤ c.toNat →
        exec (decodeCode c) s = .next (s.withBlock { s.block with error := 6, busy := false, done := true, err := true }))
    ∧ ∀ (i : Instr) (c : BitVec 8),
        i = .illegal00 ∨ i = .illegal08 c ∨ i = .illegal10 c ∨ i = .illegal20 c ∨ i = .illegal40 c ∨ i = .illegal80 c →
        exec i s = .next (s.withBlock { s.block with error := 6, busy := false, done := true, err := true })

/-! ## The whole machine -/

/-- The invariant holds right after reset. -/
def Obligations.ResetMeetsTheInvariant : Prop := State.reset.Inv

/-- Every step keeps the invariant: the legal values of DIGEST_LEN, CODE_LEN, ERROR and VERDICT (R41, R43, R45, R51,
R290), the code registers describing one code (R226), the outcome fields clear while BUSY = 1 (R46), and the reset
values while reset is asserted (R321). -/
def Obligations.EveryStepKeepsTheInvariant : Prop :=
  ∀ s t : State, s.Inv → step s = .next t → t.Inv

/-- Nothing stops the machine: every step of every state answers a next state. R293 says it of the block; that a
misaligned transaction and one during reset, which the spec lets a model refuse (R85, R321), are steps as well is
logs 6 and 8, and that a model of R293 needs no fault is log 10. -/
def Obligations.NoStepStops : Prop := ∀ s : State, ∃ t, step s = .next t

/-- The digest and code registers and their buffers, which the host cannot write, keep their values until a command
that writes them completes, or until reset (R332). VERDICT is apart, since an issue clears it (R45, R46): it becomes 1
or 2 only by the completion of a COMPARE or VERIFY, and 0 only by an issue, by the completion of a ZEROIZE, or by reset. -/
def Obligations.ResultsStayUntilRewritten : Prop :=
  ∀ s t : State, step s = .next t → ¬(t.resetAsserted = true ∧ t.block = Block.reset) →
    ((¬SameDigest s.block t.block) → s.block.busy = true ∧ t.block.busy = false
        ∧ (s.block.pending = 0x02#8 ∨ s.block.pending = 0x05#8 ∨ s.block.pending = 0x06#8 ∨ s.block.pending = 0x07#8))
    ∧ ((¬SameCode s.block t.block) → s.block.busy = true ∧ t.block.busy = false
        ∧ (s.block.pending = 0x03#8 ∨ s.block.pending = 0x05#8 ∨ s.block.pending = 0x06#8 ∨ s.block.pending = 0x07#8))
    ∧ (t.block.verdict ≠ s.block.verdict → t.block.verdict ≠ 0 → s.block.busy = true ∧ t.block.busy = false
        ∧ (s.block.pending = 0x04#8 ∨ s.block.pending = 0x06#8))
    ∧ (t.block.verdict ≠ s.block.verdict → t.block.verdict = 0 →
        (s.block.busy = false ∧ ∃ v rest, s.program = writeStmt 0x00C v :: rest
            ∧ t.block = issue (v.extractLsb' 0 8) s.block)
          ∨ (s.block.busy = true ∧ t.block.busy = false ∧ s.block.pending = 0x07#8))

/-- Every issued command completes after finitely many steps, or is abandoned by reset: from any state with a command
in progress, at most one step more than the schedule is long leads to BUSY = 0, with DONE = 1 where reset did not
intervene. That the engine moves when the schedule is used up is the model's form of fairness (R336, log 2). -/
def Obligations.IssuedCommandCompletes : Prop :=
  ∀ s : State, s.block.busy = true → s.resetAsserted = false →
    ∃ k t, k ≤ s.schedule.length + 1 ∧ StepsTo k s t ∧ t.block.busy = false
      ∧ (t.block.done = true ∨ (t.block = Block.reset ∧ t.resetAsserted = true))

/-- WAIT (R111): every poll of STATUS while BUSY = 1 keeps the WAIT at the head of the program, changes no register
and answers STATUS; after the engine has completed the command, the next poll shows BUSY = 0 and takes the WAIT off.
With the schedule used up, the engine moves next and the host after it (log 2). While reset is asserted a poll is not
answered, and the WAIT stays (log 8, log 12). -/
def Obligations.WaitEndsAfterTheCompletion : Prop :=
  (∀ (k : Nat) (s : State) (rest : List HostStmt) (turns : List Turn),
      s.block.busy = true → s.resetAsserted = false → s.program = .wait :: rest →
      s.schedule = List.replicate k .host ++ turns →
      StepsTo k s { s with
        schedule := turns
        responses := List.replicate k (.readData (busRead s.block 0x010)) ++ s.responses })
    ∧ (∀ (k : Nat) (s : State) (rest : List HostStmt) (turns : List Turn),
      s.block.busy = true → s.resetAsserted = false → s.program = .wait :: rest →
      s.schedule = List.replicate k .host ++ .engine :: .host :: turns
        ∨ (s.schedule = List.replicate k .host ∧ turns = []) →
      ∃ u, exec (decodeCode s.block.pending) s = .next u ∧ (busRead u.block 0x010).getLsbD 0 = false
        ∧ StepsTo (k + 2) s { s with
            block := u.block
            program := rest
            schedule := turns
            responses := .readData (busRead u.block 0x010)
              :: (List.replicate k (.readData (busRead s.block 0x010)) ++ s.responses) })
    ∧ ∀ (s : State) (rest : List HostStmt) (turns : List Turn),
      s.resetAsserted = true → s.program = .wait :: rest →
      s.schedule = .host :: turns ∨ (s.schedule = [] ∧ turns = [] ∧ s.block.busy = false) →
      step s = .next { s with schedule := turns, responses := .unanswered :: s.responses }

/-- The counter as the host presents it (R152, R150, R151, R111): the two writes of `W COUNTER, C` leave COUNTER_HI and
COUNTER_LO with the integer C and its 8-byte message, in whichever order the two registers are written; and the words
and messages of R152's table of examples, row by row. -/
def Obligations.PresentedCounterIsPacked : Prop :=
  (∀ (s : State) (c : Nat), c < 2 ^ 64 → s.block.busy = false → s.resetAsserted = false → s.schedule = [] →
      s.program = counterStmts c →
      ∃ t, StepsTo 2 s t ∧ t.program = [] ∧ counter t.block = c ∧ counterMessage t.block = be 8 c
        ∧ { t.block with counterHi := s.block.counterHi, counterLo := s.block.counterLo } = s.block)
    ∧ (∀ (b : Block) (hi lo : Word), b.busy = false →
        busWrite 0x020 hi (busWrite 0x024 lo b) = busWrite 0x024 lo (busWrite 0x020 hi b))
    ∧ ∀ (c : Nat) (hi lo : Word) (msg : List Byte), (c, hi, lo, msg) ∈
        [(0, 0x00000000#32, 0x00000000#32, [0x00#8, 0x00#8, 0x00#8, 0x00#8, 0x00#8, 0x00#8, 0x00#8, 0x00#8]),
         (1, 0x00000000#32, 0x00000001#32, [0x00#8, 0x00#8, 0x00#8, 0x00#8, 0x00#8, 0x00#8, 0x00#8, 0x01#8]),
         (1111111109 / 30, 0x00000000#32, 0x023523EC#32,
           [0x00#8, 0x00#8, 0x00#8, 0x00#8, 0x02#8, 0x35#8, 0x23#8, 0xEC#8]),
         (20000000000 / 30, 0x00000000#32, 0x27BC86AA#32,
           [0x00#8, 0x00#8, 0x00#8, 0x00#8, 0x27#8, 0xBC#8, 0x86#8, 0xAA#8]),
         (0x0123456789ABCDEF, 0x01234567#32, 0x89ABCDEF#32,
           [0x01#8, 0x23#8, 0x45#8, 0x67#8, 0x89#8, 0xAB#8, 0xCD#8, 0xEF#8]),
         (2 ^ 64 - 1, 0xFFFFFFFF#32, 0xFFFFFFFF#32,
           [0xFF#8, 0xFF#8, 0xFF#8, 0xFF#8, 0xFF#8, 0xFF#8, 0xFF#8, 0xFF#8])] →
        counterStmts c = [writeStmt 0x020 hi, writeStmt 0x024 lo]
          ∧ ∀ b : Block, b.counterHi = hi → b.counterLo = lo → counter b = c ∧ counterMessage b = msg
end

