-- ==== Sys2Proof/Laws/Bytes.lean ====
section
/-! SUPPORT. Laws of the byte helpers and of buffers: the length of an encoding, one byte of a buffer after each
operation, one bus word of a buffer after a write. -/

namespace Sys2Proof.Machine

@[simp] theorem length_be (n v : Nat) : (be n v).length = n := by simp [be]

theorem be_getElem (n v i : Nat) (h : i < (be n v).length) :
    (be n v)[i] = BitVec.ofNat 8 (v >>> (8 * (n - 1 - i))) := by
  simp [be]

theorem intBe_append (s t : List Byte) : intBe (s ++ t) = intBe s * 256 ^ t.length + intBe t := by
  have key : ∀ (t : List Byte) (acc : Nat),
      t.foldl (fun acc b => acc * 256 + b.toNat) acc = acc * 256 ^ t.length + intBe t := by
    intro t
    induction t with
    | nil => intro acc; simp [intBe]
    | cons x xs ih =>
      intro acc
      simp only [intBe, List.foldl_cons, List.length_cons]
      rw [ih, ih]
      ring
  simp only [intBe, List.foldl_append]
  exact key t _

theorem be_succ (n v : Nat) : be (n + 1) v = be n (v / 256) ++ [BitVec.ofNat 8 v] := by
  apply List.ext_getElem (by simp)
  intro i h₁ h₂
  rw [be_getElem]
  rcases Nat.lt_or_ge i n with h | h
  · rw [List.getElem_append_left (by simpa using h), be_getElem, ← Nat.shiftRight_eq_div_pow v 8,
      ← Nat.shiftRight_add]
    congr 2
    omega
  · have : i = n := by simp at h₁; omega
    subst this
    simp [List.getElem_append_right]

/-- The big-endian encoding is faithful on the integers it can hold. -/
theorem intBe_be (n v : Nat) (h : v < 256 ^ n) : intBe (be n v) = v := by
  induction n generalizing v with
  | zero => simp at h; simp [h, be, intBe]
  | succ n ih =>
    rw [be_succ, intBe_append, ih _ (by rw [Nat.div_lt_iff_lt_mul (by decide)]; rwa [pow_succ] at h)]
    simp [intBe]
    omega

theorem intBe_lt (s : List Byte) : intBe s < 256 ^ s.length := by
  induction s using List.reverseRecOn with
  | nil => simp [intBe]
  | append_singleton s b ih =>
    rw [intBe_append, List.length_append, pow_add]
    have := b.isLt
    simp [intBe] at ih ⊢
    omega

@[simp] theorem length_slice {α : Type} (s : List α) (i j : Nat) : (slice s i j).length = min (j - i) (s.length - i) := by
  simp [slice]

theorem Buf.ext {n : Nat} {a b : Buf n} (h : a.bytes = b.bytes) : a = b := by
  cases a; cases b; simpa using h

@[simp] theorem Buf.length_bytes {n : Nat} (b : Buf n) : b.bytes.length = n := b.size

theorem Buf.byte_of_ge {n : Nat} (b : Buf n) (i : Nat) (h : n ≤ i) : b.byte i = 0#8 := by
  simp [Buf.byte, List.getD_eq_getElem?_getD, h]

theorem Buf.byte_eq_getElem {n : Nat} (b : Buf n) (i : Nat) (h : i < n) : b.byte i = b.bytes[i]'(by simpa using h) := by
  simp [Buf.byte, List.getD_eq_getElem?_getD, h]

/-- Two buffers with equal bytes are equal. -/
theorem Buf.ext_byte {n : Nat} {a b : Buf n} (h : ∀ i < n, a.byte i = b.byte i) : a = b := by
  apply Buf.ext
  apply List.ext_getElem (by simp)
  intro i h₁ _
  have hi : i < n := by simpa using h₁
  rw [← Buf.byte_eq_getElem a i hi, ← Buf.byte_eq_getElem b i hi, h i hi]

@[simp] theorem Buf.bytes_ofBytes (n : Nat) (s : List Byte) : (Buf.ofBytes n s).bytes = padTo n s := rfl

theorem getD_padTo (n i : Nat) (s : List Byte) : (padTo n s).getD i 0#8 = if i < n then s.getD i 0#8 else 0#8 := by
  simp only [padTo, List.getD_eq_getElem?_getD, List.getElem?_take]
  split
  · rcases Nat.lt_or_ge i s.length with h | h
    · simp [List.getElem?_append_left, h]
    · simp only [List.getElem?_append_right h, List.getElem?_eq_none h, List.getElem?_replicate]
      split <;> rfl
  · rfl

theorem Buf.byte_ofBytes (n i : Nat) (s : List Byte) :
    (Buf.ofBytes n s).byte i = if i < n then s.getD i 0#8 else 0#8 := getD_padTo n i s

@[simp] theorem Buf.byte_zero (n i : Nat) : (Buf.zero n).byte i = 0#8 := by
  simp only [Buf.byte, Buf.zero, List.getD_eq_getElem?_getD, List.getElem?_replicate]
  split <;> rfl

/-- The zero buffer is the buffer of the empty string. -/
theorem Buf.ofBytes_nil (n : Nat) : Buf.ofBytes n [] = Buf.zero n := by
  apply Buf.ext
  simp [padTo, Buf.zero]

theorem padTo_of_le {n : Nat} {s : List Byte} (h : s.length ≤ n) : padTo n s = s ++ List.replicate (n - s.length) 0#8 := by
  simp [padTo]; omega

/-- The first bytes of a buffer that holds `s` are `s`. -/
theorem slice_padTo {n : Nat} {s : List Byte} (h : s.length ≤ n) : slice (padTo n s) 0 s.length = s := by
  simp [slice, padTo_of_le h]

/-- Byte `i` of a buffer after a bus write of its word `k`. -/
theorem Buf.byte_setWord {n : Nat} (b : Buf n) (k i : Nat) (v : Word) :
    (b.setWord k v).byte i =
      if i < n ∧ i / 4 = k then (wordBytes v).getD (i % 4) 0#8 else b.byte i := by
  rcases Nat.lt_or_ge i n with hi | hi
  · simp only [Buf.byte, Buf.setWord, List.getD_eq_getElem?_getD, List.getElem?_set, List.length_set, Buf.length_bytes,
      hi, true_and, wordBytes]
    by_cases h : i / 4 = k
    · rw [if_pos h]
      have h4 : i = 4 * k ∨ i = 4 * k + 1 ∨ i = 4 * k + 2 ∨ i = 4 * k + 3 := by omega
      rcases h4 with h | h | h | h <;> subst h <;> simp [Nat.add_mod, hi]
    · rw [if_neg h]
      have h0 : 4 * k ≠ i := by omega
      have h1 : 4 * k + 1 ≠ i := by omega
      have h2 : 4 * k + 2 ≠ i := by omega
      have h3 : 4 * k + 3 ≠ i := by omega
      simp [h0, h1, h2, h3]
  · rw [Buf.byte_of_ge _ _ hi, if_neg (by omega), Buf.byte_of_ge _ _ hi]

/-- The four bytes of a word, put together again. -/
theorem append_wordBytes (v : Word) :
    v.extractLsb' 24 8 ++ v.extractLsb' 16 8 ++ v.extractLsb' 8 8 ++ v.extractLsb' 0 8 = v := by
  apply BitVec.eq_of_getLsbD_eq
  intro i hi
  simp only [BitVec.getLsbD_append, BitVec.getLsbD_extractLsb']
  by_cases h0 : i < 8
  · simp [h0]
  · by_cases h1 : i - 8 < 8
    · simp [h0, h1]; congr 1; omega
    · by_cases h2 : i - 8 - 8 < 8
      · simp [h0, h1, h2]; congr 1; omega
      · simp [h0, h1, h2]
        have : i - 8 - 8 - 8 < 8 := by omega
        simp [this]; congr 1; omega

/-- A written word reads back, where the buffer holds all of it. -/
theorem Buf.word_setWord_same {n : Nat} (b : Buf n) (k : Nat) (v : Word) (h : 4 * k + 4 ≤ n) :
    (b.setWord k v).word k = v := by
  have e0 : 4 * k < n ∧ 4 * k / 4 = k := by omega
  have e1 : 4 * k + 1 < n ∧ (4 * k + 1) / 4 = k := by omega
  have e2 : 4 * k + 2 < n ∧ (4 * k + 2) / 4 = k := by omega
  have e3 : 4 * k + 3 < n ∧ (4 * k + 3) / 4 = k := by omega
  simp only [Buf.word, Buf.byte_setWord, if_pos e0, if_pos e1, if_pos e2, if_pos e3]
  have m0 : 4 * k % 4 = 0 := by omega
  have m1 : (4 * k + 1) % 4 = 1 := by omega
  have m2 : (4 * k + 2) % 4 = 2 := by omega
  have m3 : (4 * k + 3) % 4 = 3 := by omega
  rw [m0, m1, m2, m3]
  exact append_wordBytes v

/-- A written word leaves every other word of the buffer alone. -/
theorem Buf.word_setWord_other {n : Nat} (b : Buf n) (j k : Nat) (v : Word) (h : j ≠ k) :
    (b.setWord k v).word j = b.word j := by
  simp only [Buf.word, Buf.byte_setWord]
  rw [if_neg (by omega), if_neg (by omega), if_neg (by omega), if_neg (by omega)]

/-- Writing a word twice is writing it once. -/
theorem Buf.setWord_setWord {n : Nat} (b : Buf n) (k : Nat) (v : Word) :
    (b.setWord k v).setWord k v = b.setWord k v := by
  apply Buf.ext_byte
  intro i _
  simp only [Buf.byte_setWord]
  split <;> rfl

end Sys2Proof.Machine
end

