-- ==== Sys2Proof/Laws/State.lean ====
section
/-! SUPPORT. One lemma per field per update of the block and of the state, each true by rfl (storeKey's by its two cases), so that no later
proof unfolds a record update. -/

namespace Sys2Proof.Machine

variable (b : Block) (s : State)

/-! ## issue -/

@[simp] theorem issue_ctrlAlg (c : BitVec 8) : (issue c b).ctrlAlg = b.ctrlAlg := rfl
@[simp] theorem issue_ctrlDigits (c : BitVec 8) : (issue c b).ctrlDigits = b.ctrlDigits := rfl
@[simp] theorem issue_ctrlKsrc (c : BitVec 8) : (issue c b).ctrlKsrc = b.ctrlKsrc := rfl
@[simp] theorem issue_ctrlIe (c : BitVec 8) : (issue c b).ctrlIe = b.ctrlIe := rfl
@[simp] theorem issue_busy (c : BitVec 8) : (issue c b).busy = true := rfl
@[simp] theorem issue_pending (c : BitVec 8) : (issue c b).pending = c := rfl
@[simp] theorem issue_done (c : BitVec 8) : (issue c b).done = false := rfl
@[simp] theorem issue_err (c : BitVec 8) : (issue c b).err = false := rfl
@[simp] theorem issue_wbusy (c : BitVec 8) : (issue c b).wbusy = b.wbusy := rfl
@[simp] theorem issue_error (c : BitVec 8) : (issue c b).error = 0 := rfl
@[simp] theorem issue_secretLen (c : BitVec 8) : (issue c b).secretLen = b.secretLen := rfl
@[simp] theorem issue_keyLen (c : BitVec 8) : (issue c b).keyLen = b.keyLen := rfl
@[simp] theorem issue_counterHi (c : BitVec 8) : (issue c b).counterHi = b.counterHi := rfl
@[simp] theorem issue_counterLo (c : BitVec 8) : (issue c b).counterLo = b.counterLo := rfl
@[simp] theorem issue_candLen (c : BitVec 8) : (issue c b).candLen = b.candLen := rfl
@[simp] theorem issue_digestLen (c : BitVec 8) : (issue c b).digestLen = b.digestLen := rfl
@[simp] theorem issue_truncOff (c : BitVec 8) : (issue c b).truncOff = b.truncOff := rfl
@[simp] theorem issue_truncVal (c : BitVec 8) : (issue c b).truncVal = b.truncVal := rfl
@[simp] theorem issue_codeBin (c : BitVec 8) : (issue c b).codeBin = b.codeBin := rfl
@[simp] theorem issue_codeLen (c : BitVec 8) : (issue c b).codeLen = b.codeLen := rfl
@[simp] theorem issue_verdict (c : BitVec 8) : (issue c b).verdict = 0 := rfl
@[simp] theorem issue_secret (c : BitVec 8) : (issue c b).secret = b.secret := rfl
@[simp] theorem issue_key (c : BitVec 8) : (issue c b).key = b.key := rfl
@[simp] theorem issue_digest (c : BitVec 8) : (issue c b).digest = b.digest := rfl
@[simp] theorem issue_codeAscii (c : BitVec 8) : (issue c b).codeAscii = b.codeAscii := rfl
@[simp] theorem issue_cand (c : BitVec 8) : (issue c b).cand = b.cand := rfl

/-! ## complete -/

@[simp] theorem complete_ctrlAlg : (complete b).ctrlAlg = b.ctrlAlg := rfl
@[simp] theorem complete_ctrlDigits : (complete b).ctrlDigits = b.ctrlDigits := rfl
@[simp] theorem complete_ctrlKsrc : (complete b).ctrlKsrc = b.ctrlKsrc := rfl
@[simp] theorem complete_ctrlIe : (complete b).ctrlIe = b.ctrlIe := rfl
@[simp] theorem complete_busy : (complete b).busy = false := rfl
@[simp] theorem complete_pending : (complete b).pending = b.pending := rfl
@[simp] theorem complete_done : (complete b).done = true := rfl
@[simp] theorem complete_err : (complete b).err = false := rfl
@[simp] theorem complete_wbusy : (complete b).wbusy = b.wbusy := rfl
@[simp] theorem complete_error : (complete b).error = 0 := rfl
@[simp] theorem complete_secretLen : (complete b).secretLen = b.secretLen := rfl
@[simp] theorem complete_keyLen : (complete b).keyLen = b.keyLen := rfl
@[simp] theorem complete_counterHi : (complete b).counterHi = b.counterHi := rfl
@[simp] theorem complete_counterLo : (complete b).counterLo = b.counterLo := rfl
@[simp] theorem complete_candLen : (complete b).candLen = b.candLen := rfl
@[simp] theorem complete_digestLen : (complete b).digestLen = b.digestLen := rfl
@[simp] theorem complete_truncOff : (complete b).truncOff = b.truncOff := rfl
@[simp] theorem complete_truncVal : (complete b).truncVal = b.truncVal := rfl
@[simp] theorem complete_codeBin : (complete b).codeBin = b.codeBin := rfl
@[simp] theorem complete_codeLen : (complete b).codeLen = b.codeLen := rfl
@[simp] theorem complete_verdict : (complete b).verdict = b.verdict := rfl
@[simp] theorem complete_secret : (complete b).secret = b.secret := rfl
@[simp] theorem complete_key : (complete b).key = b.key := rfl
@[simp] theorem complete_digest : (complete b).digest = b.digest := rfl
@[simp] theorem complete_codeAscii : (complete b).codeAscii = b.codeAscii := rfl
@[simp] theorem complete_cand : (complete b).cand = b.cand := rfl

/-! ## raise -/

@[simp] theorem raise_ctrlAlg (e : CommandError) : (raise e b).ctrlAlg = b.ctrlAlg := rfl
@[simp] theorem raise_ctrlDigits (e : CommandError) : (raise e b).ctrlDigits = b.ctrlDigits := rfl
@[simp] theorem raise_ctrlKsrc (e : CommandError) : (raise e b).ctrlKsrc = b.ctrlKsrc := rfl
@[simp] theorem raise_ctrlIe (e : CommandError) : (raise e b).ctrlIe = b.ctrlIe := rfl
@[simp] theorem raise_busy (e : CommandError) : (raise e b).busy = false := rfl
@[simp] theorem raise_pending (e : CommandError) : (raise e b).pending = b.pending := rfl
@[simp] theorem raise_done (e : CommandError) : (raise e b).done = true := rfl
@[simp] theorem raise_err (e : CommandError) : (raise e b).err = true := rfl
@[simp] theorem raise_wbusy (e : CommandError) : (raise e b).wbusy = b.wbusy := rfl
@[simp] theorem raise_error (e : CommandError) : (raise e b).error = errorCode e := rfl
@[simp] theorem raise_secretLen (e : CommandError) : (raise e b).secretLen = b.secretLen := rfl
@[simp] theorem raise_keyLen (e : CommandError) : (raise e b).keyLen = b.keyLen := rfl
@[simp] theorem raise_counterHi (e : CommandError) : (raise e b).counterHi = b.counterHi := rfl
@[simp] theorem raise_counterLo (e : CommandError) : (raise e b).counterLo = b.counterLo := rfl
@[simp] theorem raise_candLen (e : CommandError) : (raise e b).candLen = b.candLen := rfl
@[simp] theorem raise_digestLen (e : CommandError) : (raise e b).digestLen = b.digestLen := rfl
@[simp] theorem raise_truncOff (e : CommandError) : (raise e b).truncOff = b.truncOff := rfl
@[simp] theorem raise_truncVal (e : CommandError) : (raise e b).truncVal = b.truncVal := rfl
@[simp] theorem raise_codeBin (e : CommandError) : (raise e b).codeBin = b.codeBin := rfl
@[simp] theorem raise_codeLen (e : CommandError) : (raise e b).codeLen = b.codeLen := rfl
@[simp] theorem raise_verdict (e : CommandError) : (raise e b).verdict = b.verdict := rfl
@[simp] theorem raise_secret (e : CommandError) : (raise e b).secret = b.secret := rfl
@[simp] theorem raise_key (e : CommandError) : (raise e b).key = b.key := rfl
@[simp] theorem raise_digest (e : CommandError) : (raise e b).digest = b.digest := rfl
@[simp] theorem raise_codeAscii (e : CommandError) : (raise e b).codeAscii = b.codeAscii := rfl
@[simp] theorem raise_cand (e : CommandError) : (raise e b).cand = b.cand := rfl

/-! ## writeKey -/

@[simp] theorem writeKey_ctrlAlg (k : List Byte) : (writeKey k b).ctrlAlg = b.ctrlAlg := rfl
@[simp] theorem writeKey_ctrlDigits (k : List Byte) : (writeKey k b).ctrlDigits = b.ctrlDigits := rfl
@[simp] theorem writeKey_ctrlKsrc (k : List Byte) : (writeKey k b).ctrlKsrc = b.ctrlKsrc := rfl
@[simp] theorem writeKey_ctrlIe (k : List Byte) : (writeKey k b).ctrlIe = b.ctrlIe := rfl
@[simp] theorem writeKey_busy (k : List Byte) : (writeKey k b).busy = b.busy := rfl
@[simp] theorem writeKey_pending (k : List Byte) : (writeKey k b).pending = b.pending := rfl
@[simp] theorem writeKey_done (k : List Byte) : (writeKey k b).done = b.done := rfl
@[simp] theorem writeKey_err (k : List Byte) : (writeKey k b).err = b.err := rfl
@[simp] theorem writeKey_wbusy (k : List Byte) : (writeKey k b).wbusy = b.wbusy := rfl
@[simp] theorem writeKey_error (k : List Byte) : (writeKey k b).error = b.error := rfl
@[simp] theorem writeKey_secretLen (k : List Byte) : (writeKey k b).secretLen = b.secretLen := rfl
@[simp] theorem writeKey_keyLen (k : List Byte) : (writeKey k b).keyLen = BitVec.ofNat 32 k.length := rfl
@[simp] theorem writeKey_counterHi (k : List Byte) : (writeKey k b).counterHi = b.counterHi := rfl
@[simp] theorem writeKey_counterLo (k : List Byte) : (writeKey k b).counterLo = b.counterLo := rfl
@[simp] theorem writeKey_candLen (k : List Byte) : (writeKey k b).candLen = b.candLen := rfl
@[simp] theorem writeKey_digestLen (k : List Byte) : (writeKey k b).digestLen = b.digestLen := rfl
@[simp] theorem writeKey_truncOff (k : List Byte) : (writeKey k b).truncOff = b.truncOff := rfl
@[simp] theorem writeKey_truncVal (k : List Byte) : (writeKey k b).truncVal = b.truncVal := rfl
@[simp] theorem writeKey_codeBin (k : List Byte) : (writeKey k b).codeBin = b.codeBin := rfl
@[simp] theorem writeKey_codeLen (k : List Byte) : (writeKey k b).codeLen = b.codeLen := rfl
@[simp] theorem writeKey_verdict (k : List Byte) : (writeKey k b).verdict = b.verdict := rfl
@[simp] theorem writeKey_secret (k : List Byte) : (writeKey k b).secret = b.secret := rfl
@[simp] theorem writeKey_key (k : List Byte) : (writeKey k b).key = Buf.ofBytes 160 k := rfl
@[simp] theorem writeKey_digest (k : List Byte) : (writeKey k b).digest = b.digest := rfl
@[simp] theorem writeKey_codeAscii (k : List Byte) : (writeKey k b).codeAscii = b.codeAscii := rfl
@[simp] theorem writeKey_cand (k : List Byte) : (writeKey k b).cand = b.cand := rfl

/-! ## writeDigest -/

@[simp] theorem writeDigest_ctrlAlg (d : List Byte) : (writeDigest d b).ctrlAlg = b.ctrlAlg := rfl
@[simp] theorem writeDigest_ctrlDigits (d : List Byte) : (writeDigest d b).ctrlDigits = b.ctrlDigits := rfl
@[simp] theorem writeDigest_ctrlKsrc (d : List Byte) : (writeDigest d b).ctrlKsrc = b.ctrlKsrc := rfl
@[simp] theorem writeDigest_ctrlIe (d : List Byte) : (writeDigest d b).ctrlIe = b.ctrlIe := rfl
@[simp] theorem writeDigest_busy (d : List Byte) : (writeDigest d b).busy = b.busy := rfl
@[simp] theorem writeDigest_pending (d : List Byte) : (writeDigest d b).pending = b.pending := rfl
@[simp] theorem writeDigest_done (d : List Byte) : (writeDigest d b).done = b.done := rfl
@[simp] theorem writeDigest_err (d : List Byte) : (writeDigest d b).err = b.err := rfl
@[simp] theorem writeDigest_wbusy (d : List Byte) : (writeDigest d b).wbusy = b.wbusy := rfl
@[simp] theorem writeDigest_error (d : List Byte) : (writeDigest d b).error = b.error := rfl
@[simp] theorem writeDigest_secretLen (d : List Byte) : (writeDigest d b).secretLen = b.secretLen := rfl
@[simp] theorem writeDigest_keyLen (d : List Byte) : (writeDigest d b).keyLen = b.keyLen := rfl
@[simp] theorem writeDigest_counterHi (d : List Byte) : (writeDigest d b).counterHi = b.counterHi := rfl
@[simp] theorem writeDigest_counterLo (d : List Byte) : (writeDigest d b).counterLo = b.counterLo := rfl
@[simp] theorem writeDigest_candLen (d : List Byte) : (writeDigest d b).candLen = b.candLen := rfl
@[simp] theorem writeDigest_digestLen (d : List Byte) : (writeDigest d b).digestLen = BitVec.ofNat 32 d.length := rfl
@[simp] theorem writeDigest_truncOff (d : List Byte) : (writeDigest d b).truncOff = b.truncOff := rfl
@[simp] theorem writeDigest_truncVal (d : List Byte) : (writeDigest d b).truncVal = b.truncVal := rfl
@[simp] theorem writeDigest_codeBin (d : List Byte) : (writeDigest d b).codeBin = b.codeBin := rfl
@[simp] theorem writeDigest_codeLen (d : List Byte) : (writeDigest d b).codeLen = b.codeLen := rfl
@[simp] theorem writeDigest_verdict (d : List Byte) : (writeDigest d b).verdict = b.verdict := rfl
@[simp] theorem writeDigest_secret (d : List Byte) : (writeDigest d b).secret = b.secret := rfl
@[simp] theorem writeDigest_key (d : List Byte) : (writeDigest d b).key = b.key := rfl
@[simp] theorem writeDigest_digest (d : List Byte) : (writeDigest d b).digest = Buf.ofBytes 64 d := rfl
@[simp] theorem writeDigest_codeAscii (d : List Byte) : (writeDigest d b).codeAscii = b.codeAscii := rfl
@[simp] theorem writeDigest_cand (d : List Byte) : (writeDigest d b).cand = b.cand := rfl

/-! ## writeCode -/

@[simp] theorem writeCode_ctrlAlg (d : List Byte) (n : Nat) : (writeCode d n b).ctrlAlg = b.ctrlAlg := rfl
@[simp] theorem writeCode_ctrlDigits (d : List Byte) (n : Nat) : (writeCode d n b).ctrlDigits = b.ctrlDigits := rfl
@[simp] theorem writeCode_ctrlKsrc (d : List Byte) (n : Nat) : (writeCode d n b).ctrlKsrc = b.ctrlKsrc := rfl
@[simp] theorem writeCode_ctrlIe (d : List Byte) (n : Nat) : (writeCode d n b).ctrlIe = b.ctrlIe := rfl
@[simp] theorem writeCode_busy (d : List Byte) (n : Nat) : (writeCode d n b).busy = b.busy := rfl
@[simp] theorem writeCode_pending (d : List Byte) (n : Nat) : (writeCode d n b).pending = b.pending := rfl
@[simp] theorem writeCode_done (d : List Byte) (n : Nat) : (writeCode d n b).done = b.done := rfl
@[simp] theorem writeCode_err (d : List Byte) (n : Nat) : (writeCode d n b).err = b.err := rfl
@[simp] theorem writeCode_wbusy (d : List Byte) (n : Nat) : (writeCode d n b).wbusy = b.wbusy := rfl
@[simp] theorem writeCode_error (d : List Byte) (n : Nat) : (writeCode d n b).error = b.error := rfl
@[simp] theorem writeCode_secretLen (d : List Byte) (n : Nat) : (writeCode d n b).secretLen = b.secretLen := rfl
@[simp] theorem writeCode_keyLen (d : List Byte) (n : Nat) : (writeCode d n b).keyLen = b.keyLen := rfl
@[simp] theorem writeCode_counterHi (d : List Byte) (n : Nat) : (writeCode d n b).counterHi = b.counterHi := rfl
@[simp] theorem writeCode_counterLo (d : List Byte) (n : Nat) : (writeCode d n b).counterLo = b.counterLo := rfl
@[simp] theorem writeCode_candLen (d : List Byte) (n : Nat) : (writeCode d n b).candLen = b.candLen := rfl
@[simp] theorem writeCode_digestLen (d : List Byte) (n : Nat) : (writeCode d n b).digestLen = b.digestLen := rfl
@[simp] theorem writeCode_truncOff (d : List Byte) (n : Nat) : (writeCode d n b).truncOff = truncOffset d := rfl
@[simp] theorem writeCode_truncVal (d : List Byte) (n : Nat) : (writeCode d n b).truncVal = BitVec.ofNat 31 (truncValue d) := rfl
@[simp] theorem writeCode_codeBin (d : List Byte) (n : Nat) : (writeCode d n b).codeBin = BitVec.ofNat 32 (foldCode (truncValue d) n) := rfl
@[simp] theorem writeCode_codeLen (d : List Byte) (n : Nat) : (writeCode d n b).codeLen = BitVec.ofNat 32 n := rfl
@[simp] theorem writeCode_verdict (d : List Byte) (n : Nat) : (writeCode d n b).verdict = b.verdict := rfl
@[simp] theorem writeCode_secret (d : List Byte) (n : Nat) : (writeCode d n b).secret = b.secret := rfl
@[simp] theorem writeCode_key (d : List Byte) (n : Nat) : (writeCode d n b).key = b.key := rfl
@[simp] theorem writeCode_digest (d : List Byte) (n : Nat) : (writeCode d n b).digest = b.digest := rfl
@[simp] theorem writeCode_codeAscii (d : List Byte) (n : Nat) : (writeCode d n b).codeAscii = Buf.ofBytes 8 (decimalAscii (foldCode (truncValue d) n) n) := rfl
@[simp] theorem writeCode_cand (d : List Byte) (n : Nat) : (writeCode d n b).cand = b.cand := rfl

/-! ## writeVerdict -/

@[simp] theorem writeVerdict_ctrlAlg : (writeVerdict b).ctrlAlg = b.ctrlAlg := rfl
@[simp] theorem writeVerdict_ctrlDigits : (writeVerdict b).ctrlDigits = b.ctrlDigits := rfl
@[simp] theorem writeVerdict_ctrlKsrc : (writeVerdict b).ctrlKsrc = b.ctrlKsrc := rfl
@[simp] theorem writeVerdict_ctrlIe : (writeVerdict b).ctrlIe = b.ctrlIe := rfl
@[simp] theorem writeVerdict_busy : (writeVerdict b).busy = b.busy := rfl
@[simp] theorem writeVerdict_pending : (writeVerdict b).pending = b.pending := rfl
@[simp] theorem writeVerdict_done : (writeVerdict b).done = b.done := rfl
@[simp] theorem writeVerdict_err : (writeVerdict b).err = b.err := rfl
@[simp] theorem writeVerdict_wbusy : (writeVerdict b).wbusy = b.wbusy := rfl
@[simp] theorem writeVerdict_error : (writeVerdict b).error = b.error := rfl
@[simp] theorem writeVerdict_secretLen : (writeVerdict b).secretLen = b.secretLen := rfl
@[simp] theorem writeVerdict_keyLen : (writeVerdict b).keyLen = b.keyLen := rfl
@[simp] theorem writeVerdict_counterHi : (writeVerdict b).counterHi = b.counterHi := rfl
@[simp] theorem writeVerdict_counterLo : (writeVerdict b).counterLo = b.counterLo := rfl
@[simp] theorem writeVerdict_candLen : (writeVerdict b).candLen = b.candLen := rfl
@[simp] theorem writeVerdict_digestLen : (writeVerdict b).digestLen = b.digestLen := rfl
@[simp] theorem writeVerdict_truncOff : (writeVerdict b).truncOff = b.truncOff := rfl
@[simp] theorem writeVerdict_truncVal : (writeVerdict b).truncVal = b.truncVal := rfl
@[simp] theorem writeVerdict_codeBin : (writeVerdict b).codeBin = b.codeBin := rfl
@[simp] theorem writeVerdict_codeLen : (writeVerdict b).codeLen = b.codeLen := rfl
@[simp] theorem writeVerdict_verdict : (writeVerdict b).verdict = if codeMatches b then 1#2 else 2#2 := rfl
@[simp] theorem writeVerdict_secret : (writeVerdict b).secret = b.secret := rfl
@[simp] theorem writeVerdict_key : (writeVerdict b).key = b.key := rfl
@[simp] theorem writeVerdict_digest : (writeVerdict b).digest = b.digest := rfl
@[simp] theorem writeVerdict_codeAscii : (writeVerdict b).codeAscii = b.codeAscii := rfl
@[simp] theorem writeVerdict_cand : (writeVerdict b).cand = b.cand := rfl

/-! ## clearData -/

@[simp] theorem clearData_ctrlAlg : (clearData b).ctrlAlg = b.ctrlAlg := rfl
@[simp] theorem clearData_ctrlDigits : (clearData b).ctrlDigits = b.ctrlDigits := rfl
@[simp] theorem clearData_ctrlKsrc : (clearData b).ctrlKsrc = b.ctrlKsrc := rfl
@[simp] theorem clearData_ctrlIe : (clearData b).ctrlIe = b.ctrlIe := rfl
@[simp] theorem clearData_busy : (clearData b).busy = b.busy := rfl
@[simp] theorem clearData_pending : (clearData b).pending = b.pending := rfl
@[simp] theorem clearData_done : (clearData b).done = b.done := rfl
@[simp] theorem clearData_err : (clearData b).err = b.err := rfl
@[simp] theorem clearData_wbusy : (clearData b).wbusy = b.wbusy := rfl
@[simp] theorem clearData_error : (clearData b).error = b.error := rfl
@[simp] theorem clearData_secretLen : (clearData b).secretLen = 0 := rfl
@[simp] theorem clearData_keyLen : (clearData b).keyLen = 0 := rfl
@[simp] theorem clearData_counterHi : (clearData b).counterHi = 0 := rfl
@[simp] theorem clearData_counterLo : (clearData b).counterLo = 0 := rfl
@[simp] theorem clearData_candLen : (clearData b).candLen = 0 := rfl
@[simp] theorem clearData_digestLen : (clearData b).digestLen = 0 := rfl
@[simp] theorem clearData_truncOff : (clearData b).truncOff = 0 := rfl
@[simp] theorem clearData_truncVal : (clearData b).truncVal = 0 := rfl
@[simp] theorem clearData_codeBin : (clearData b).codeBin = 0 := rfl
@[simp] theorem clearData_codeLen : (clearData b).codeLen = 0 := rfl
@[simp] theorem clearData_verdict : (clearData b).verdict = 0 := rfl
@[simp] theorem clearData_secret : (clearData b).secret = Buf.zero 256 := rfl
@[simp] theorem clearData_key : (clearData b).key = Buf.zero 160 := rfl
@[simp] theorem clearData_digest : (clearData b).digest = Buf.zero 64 := rfl
@[simp] theorem clearData_codeAscii : (clearData b).codeAscii = Buf.zero 8 := rfl
@[simp] theorem clearData_cand : (clearData b).cand = Buf.zero 8 := rfl

/-! ## writeCtrl -/

@[simp] theorem writeCtrl_ctrlAlg (v : Word) : (writeCtrl v b).ctrlAlg = v.extractLsb' 0 2 := rfl
@[simp] theorem writeCtrl_ctrlDigits (v : Word) : (writeCtrl v b).ctrlDigits = v.extractLsb' 4 4 := rfl
@[simp] theorem writeCtrl_ctrlKsrc (v : Word) : (writeCtrl v b).ctrlKsrc = v.getLsbD 8 := rfl
@[simp] theorem writeCtrl_ctrlIe (v : Word) : (writeCtrl v b).ctrlIe = v.getLsbD 9 := rfl
@[simp] theorem writeCtrl_busy (v : Word) : (writeCtrl v b).busy = b.busy := rfl
@[simp] theorem writeCtrl_pending (v : Word) : (writeCtrl v b).pending = b.pending := rfl
@[simp] theorem writeCtrl_done (v : Word) : (writeCtrl v b).done = b.done := rfl
@[simp] theorem writeCtrl_err (v : Word) : (writeCtrl v b).err = b.err := rfl
@[simp] theorem writeCtrl_wbusy (v : Word) : (writeCtrl v b).wbusy = b.wbusy := rfl
@[simp] theorem writeCtrl_error (v : Word) : (writeCtrl v b).error = b.error := rfl
@[simp] theorem writeCtrl_secretLen (v : Word) : (writeCtrl v b).secretLen = b.secretLen := rfl
@[simp] theorem writeCtrl_keyLen (v : Word) : (writeCtrl v b).keyLen = b.keyLen := rfl
@[simp] theorem writeCtrl_counterHi (v : Word) : (writeCtrl v b).counterHi = b.counterHi := rfl
@[simp] theorem writeCtrl_counterLo (v : Word) : (writeCtrl v b).counterLo = b.counterLo := rfl
@[simp] theorem writeCtrl_candLen (v : Word) : (writeCtrl v b).candLen = b.candLen := rfl
@[simp] theorem writeCtrl_digestLen (v : Word) : (writeCtrl v b).digestLen = b.digestLen := rfl
@[simp] theorem writeCtrl_truncOff (v : Word) : (writeCtrl v b).truncOff = b.truncOff := rfl
@[simp] theorem writeCtrl_truncVal (v : Word) : (writeCtrl v b).truncVal = b.truncVal := rfl
@[simp] theorem writeCtrl_codeBin (v : Word) : (writeCtrl v b).codeBin = b.codeBin := rfl
@[simp] theorem writeCtrl_codeLen (v : Word) : (writeCtrl v b).codeLen = b.codeLen := rfl
@[simp] theorem writeCtrl_verdict (v : Word) : (writeCtrl v b).verdict = b.verdict := rfl
@[simp] theorem writeCtrl_secret (v : Word) : (writeCtrl v b).secret = b.secret := rfl
@[simp] theorem writeCtrl_key (v : Word) : (writeCtrl v b).key = b.key := rfl
@[simp] theorem writeCtrl_digest (v : Word) : (writeCtrl v b).digest = b.digest := rfl
@[simp] theorem writeCtrl_codeAscii (v : Word) : (writeCtrl v b).codeAscii = b.codeAscii := rfl
@[simp] theorem writeCtrl_cand (v : Word) : (writeCtrl v b).cand = b.cand := rfl

/-! ## clearStatus -/

@[simp] theorem clearStatus_ctrlAlg (v : Word) : (clearStatus v b).ctrlAlg = b.ctrlAlg := rfl
@[simp] theorem clearStatus_ctrlDigits (v : Word) : (clearStatus v b).ctrlDigits = b.ctrlDigits := rfl
@[simp] theorem clearStatus_ctrlKsrc (v : Word) : (clearStatus v b).ctrlKsrc = b.ctrlKsrc := rfl
@[simp] theorem clearStatus_ctrlIe (v : Word) : (clearStatus v b).ctrlIe = b.ctrlIe := rfl
@[simp] theorem clearStatus_busy (v : Word) : (clearStatus v b).busy = b.busy := rfl
@[simp] theorem clearStatus_pending (v : Word) : (clearStatus v b).pending = b.pending := rfl
@[simp] theorem clearStatus_done (v : Word) : (clearStatus v b).done = (b.done && !v.getLsbD 1) := rfl
@[simp] theorem clearStatus_err (v : Word) : (clearStatus v b).err = (b.err && !v.getLsbD 2) := rfl
@[simp] theorem clearStatus_wbusy (v : Word) : (clearStatus v b).wbusy = (b.wbusy && !v.getLsbD 3) := rfl
@[simp] theorem clearStatus_error (v : Word) : (clearStatus v b).error = b.error := rfl
@[simp] theorem clearStatus_secretLen (v : Word) : (clearStatus v b).secretLen = b.secretLen := rfl
@[simp] theorem clearStatus_keyLen (v : Word) : (clearStatus v b).keyLen = b.keyLen := rfl
@[simp] theorem clearStatus_counterHi (v : Word) : (clearStatus v b).counterHi = b.counterHi := rfl
@[simp] theorem clearStatus_counterLo (v : Word) : (clearStatus v b).counterLo = b.counterLo := rfl
@[simp] theorem clearStatus_candLen (v : Word) : (clearStatus v b).candLen = b.candLen := rfl
@[simp] theorem clearStatus_digestLen (v : Word) : (clearStatus v b).digestLen = b.digestLen := rfl
@[simp] theorem clearStatus_truncOff (v : Word) : (clearStatus v b).truncOff = b.truncOff := rfl
@[simp] theorem clearStatus_truncVal (v : Word) : (clearStatus v b).truncVal = b.truncVal := rfl
@[simp] theorem clearStatus_codeBin (v : Word) : (clearStatus v b).codeBin = b.codeBin := rfl
@[simp] theorem clearStatus_codeLen (v : Word) : (clearStatus v b).codeLen = b.codeLen := rfl
@[simp] theorem clearStatus_verdict (v : Word) : (clearStatus v b).verdict = b.verdict := rfl
@[simp] theorem clearStatus_secret (v : Word) : (clearStatus v b).secret = b.secret := rfl
@[simp] theorem clearStatus_key (v : Word) : (clearStatus v b).key = b.key := rfl
@[simp] theorem clearStatus_digest (v : Word) : (clearStatus v b).digest = b.digest := rfl
@[simp] theorem clearStatus_codeAscii (v : Word) : (clearStatus v b).codeAscii = b.codeAscii := rfl
@[simp] theorem clearStatus_cand (v : Word) : (clearStatus v b).cand = b.cand := rfl

/-! ## dropWrite -/

@[simp] theorem dropWrite_ctrlAlg : (dropWrite b).ctrlAlg = b.ctrlAlg := rfl
@[simp] theorem dropWrite_ctrlDigits : (dropWrite b).ctrlDigits = b.ctrlDigits := rfl
@[simp] theorem dropWrite_ctrlKsrc : (dropWrite b).ctrlKsrc = b.ctrlKsrc := rfl
@[simp] theorem dropWrite_ctrlIe : (dropWrite b).ctrlIe = b.ctrlIe := rfl
@[simp] theorem dropWrite_busy : (dropWrite b).busy = b.busy := rfl
@[simp] theorem dropWrite_pending : (dropWrite b).pending = b.pending := rfl
@[simp] theorem dropWrite_done : (dropWrite b).done = b.done := rfl
@[simp] theorem dropWrite_err : (dropWrite b).err = b.err := rfl
@[simp] theorem dropWrite_wbusy : (dropWrite b).wbusy = true := rfl
@[simp] theorem dropWrite_error : (dropWrite b).error = b.error := rfl
@[simp] theorem dropWrite_secretLen : (dropWrite b).secretLen = b.secretLen := rfl
@[simp] theorem dropWrite_keyLen : (dropWrite b).keyLen = b.keyLen := rfl
@[simp] theorem dropWrite_counterHi : (dropWrite b).counterHi = b.counterHi := rfl
@[simp] theorem dropWrite_counterLo : (dropWrite b).counterLo = b.counterLo := rfl
@[simp] theorem dropWrite_candLen : (dropWrite b).candLen = b.candLen := rfl
@[simp] theorem dropWrite_digestLen : (dropWrite b).digestLen = b.digestLen := rfl
@[simp] theorem dropWrite_truncOff : (dropWrite b).truncOff = b.truncOff := rfl
@[simp] theorem dropWrite_truncVal : (dropWrite b).truncVal = b.truncVal := rfl
@[simp] theorem dropWrite_codeBin : (dropWrite b).codeBin = b.codeBin := rfl
@[simp] theorem dropWrite_codeLen : (dropWrite b).codeLen = b.codeLen := rfl
@[simp] theorem dropWrite_verdict : (dropWrite b).verdict = b.verdict := rfl
@[simp] theorem dropWrite_secret : (dropWrite b).secret = b.secret := rfl
@[simp] theorem dropWrite_key : (dropWrite b).key = b.key := rfl
@[simp] theorem dropWrite_digest : (dropWrite b).digest = b.digest := rfl
@[simp] theorem dropWrite_codeAscii : (dropWrite b).codeAscii = b.codeAscii := rfl
@[simp] theorem dropWrite_cand : (dropWrite b).cand = b.cand := rfl

/-! ## storeKey -/

@[simp] theorem storeKey_ctrlAlg (k : List Byte) : (storeKey k b).ctrlAlg = b.ctrlAlg := by unfold storeKey; split <;> rfl
@[simp] theorem storeKey_ctrlDigits (k : List Byte) : (storeKey k b).ctrlDigits = b.ctrlDigits := by unfold storeKey; split <;> rfl
@[simp] theorem storeKey_ctrlKsrc (k : List Byte) : (storeKey k b).ctrlKsrc = b.ctrlKsrc := by unfold storeKey; split <;> rfl
@[simp] theorem storeKey_ctrlIe (k : List Byte) : (storeKey k b).ctrlIe = b.ctrlIe := by unfold storeKey; split <;> rfl
@[simp] theorem storeKey_busy (k : List Byte) : (storeKey k b).busy = b.busy := by unfold storeKey; split <;> rfl
@[simp] theorem storeKey_pending (k : List Byte) : (storeKey k b).pending = b.pending := by unfold storeKey; split <;> rfl
@[simp] theorem storeKey_done (k : List Byte) : (storeKey k b).done = b.done := by unfold storeKey; split <;> rfl
@[simp] theorem storeKey_err (k : List Byte) : (storeKey k b).err = b.err := by unfold storeKey; split <;> rfl
@[simp] theorem storeKey_wbusy (k : List Byte) : (storeKey k b).wbusy = b.wbusy := by unfold storeKey; split <;> rfl
@[simp] theorem storeKey_error (k : List Byte) : (storeKey k b).error = b.error := by unfold storeKey; split <;> rfl
@[simp] theorem storeKey_secretLen (k : List Byte) : (storeKey k b).secretLen = b.secretLen := by unfold storeKey; split <;> rfl
@[simp] theorem storeKey_keyLen (k : List Byte) : (storeKey k b).keyLen = if b.ctrlKsrc then BitVec.ofNat 32 k.length else b.keyLen := by unfold storeKey; split <;> rfl
@[simp] theorem storeKey_counterHi (k : List Byte) : (storeKey k b).counterHi = b.counterHi := by unfold storeKey; split <;> rfl
@[simp] theorem storeKey_counterLo (k : List Byte) : (storeKey k b).counterLo = b.counterLo := by unfold storeKey; split <;> rfl
@[simp] theorem storeKey_candLen (k : List Byte) : (storeKey k b).candLen = b.candLen := by unfold storeKey; split <;> rfl
@[simp] theorem storeKey_digestLen (k : List Byte) : (storeKey k b).digestLen = b.digestLen := by unfold storeKey; split <;> rfl
@[simp] theorem storeKey_truncOff (k : List Byte) : (storeKey k b).truncOff = b.truncOff := by unfold storeKey; split <;> rfl
@[simp] theorem storeKey_truncVal (k : List Byte) : (storeKey k b).truncVal = b.truncVal := by unfold storeKey; split <;> rfl
@[simp] theorem storeKey_codeBin (k : List Byte) : (storeKey k b).codeBin = b.codeBin := by unfold storeKey; split <;> rfl
@[simp] theorem storeKey_codeLen (k : List Byte) : (storeKey k b).codeLen = b.codeLen := by unfold storeKey; split <;> rfl
@[simp] theorem storeKey_verdict (k : List Byte) : (storeKey k b).verdict = b.verdict := by unfold storeKey; split <;> rfl
@[simp] theorem storeKey_secret (k : List Byte) : (storeKey k b).secret = b.secret := by unfold storeKey; split <;> rfl
@[simp] theorem storeKey_key (k : List Byte) : (storeKey k b).key = if b.ctrlKsrc then Buf.ofBytes 160 k else b.key := by unfold storeKey; split <;> rfl
@[simp] theorem storeKey_digest (k : List Byte) : (storeKey k b).digest = b.digest := by unfold storeKey; split <;> rfl
@[simp] theorem storeKey_codeAscii (k : List Byte) : (storeKey k b).codeAscii = b.codeAscii := by unfold storeKey; split <;> rfl
@[simp] theorem storeKey_cand (k : List Byte) : (storeKey k b).cand = b.cand := by unfold storeKey; split <;> rfl

/-! ## The state -/

@[simp] theorem withBlock_block (c : Block) : (s.withBlock c).block = c := rfl
@[simp] theorem withBlock_resetAsserted (c : Block) : (s.withBlock c).resetAsserted = s.resetAsserted := rfl
@[simp] theorem withBlock_program (c : Block) : (s.withBlock c).program = s.program := rfl
@[simp] theorem withBlock_schedule (c : Block) : (s.withBlock c).schedule = s.schedule := rfl
@[simp] theorem withBlock_responses (c : Block) : (s.withBlock c).responses = s.responses := rfl

@[simp] theorem withSchedule_block (ts : List Turn) : (s.withSchedule ts).block = s.block := rfl
@[simp] theorem withSchedule_resetAsserted (ts : List Turn) : (s.withSchedule ts).resetAsserted = s.resetAsserted := rfl
@[simp] theorem withSchedule_program (ts : List Turn) : (s.withSchedule ts).program = s.program := rfl
@[simp] theorem withSchedule_schedule (ts : List Turn) : (s.withSchedule ts).schedule = ts := rfl
@[simp] theorem withSchedule_responses (ts : List Turn) : (s.withSchedule ts).responses = s.responses := rfl

@[simp] theorem resetTurn_block (a : Bool) : (resetTurn a s).block = if a then Block.reset else s.block := rfl
@[simp] theorem resetTurn_resetAsserted (a : Bool) : (resetTurn a s).resetAsserted = a := rfl
@[simp] theorem resetTurn_program (a : Bool) : (resetTurn a s).program = s.program := rfl
@[simp] theorem resetTurn_schedule (a : Bool) : (resetTurn a s).schedule = s.schedule := rfl
@[simp] theorem resetTurn_responses (a : Bool) : (resetTurn a s).responses = s.responses := rfl

@[simp] theorem issueNext_block (w : Word) : (issueNext w s).block = issue (codeOf w) s.block := rfl
@[simp] theorem issueNext_resetAsserted (w : Word) : (issueNext w s).resetAsserted = false := rfl
@[simp] theorem issueNext_program (w : Word) : (issueNext w s).program = s.program := rfl
@[simp] theorem issueNext_schedule (w : Word) : (issueNext w s).schedule = .engine :: s.schedule := rfl
@[simp] theorem issueNext_responses (w : Word) : (issueNext w s).responses = s.responses := rfl

end Sys2Proof.Machine
end

