-- ==== Sys2Proof/Laws/Ops.lean ====
section
/-! SUPPORT. What the shared operations can do: the completion of a command, the register map, and bus writes. -/

namespace Sys2Proof.Machine

/-! ## Completion -/

@[simp] theorem commit_ok (b c : Block) : commit b (.ok c) = complete c := rfl

@[simp] theorem commit_error (b : Block) (e : CommandError) : commit b (.error e) = raise e b := rfl

/-- A command always answers a next state, in which only the block differs. -/
theorem runCommand_eq (body : Block → Except CommandError Block) (s : State) :
    runCommand body s = .next (s.withBlock (commit s.block (body s.block))) := rfl

/-- All that a completion can be: the body's block completed, or the old block with its error raised. -/
theorem commit_cases (b : Block) (r : Except CommandError Block) :
    (∃ c, r = .ok c ∧ commit b r = complete c) ∨ (∃ e, r = .error e ∧ commit b r = raise e b) := by
  cases r with
  | ok c => exact .inl ⟨c, rfl, rfl⟩
  | error e => exact .inr ⟨e, rfl, rfl⟩

@[simp] theorem errorCode_ne_zero (e : CommandError) : errorCode e ≠ 0#4 := by cases e <;> decide

theorem errorCode_lt (e : CommandError) : (errorCode e).toNat < 8 := by cases e <;> decide

theorem errorCode_injective {e f : CommandError} (h : errorCode e = errorCode f) : e = f := by
  revert h; cases e <;> cases f <;> decide

/-! ## The register map -/

/-- The map and the names agree: a named register stands at its own offset. -/
theorem regAt_of_regOffset {r : Reg} {off : Nat} (h : regOffset r = some off) : regAt off = r := by
  cases r <;> simp only [regOffset, Option.ite_none_right_eq_some, Option.some.injEq, reduceCtorEq] at h <;>
    first
      | (subst h; rfl)
      | (obtain ⟨h₁, rfl⟩ := h
         simp only [regAt]
         repeat (rw [if_neg (by omega)])
         rw [if_pos (by omega)]
         congr 1
         omega)

theorem regAt_table : ∀ off < 0x400, off % 4 = 0 → regOffset (regAt off) = some off ∨ regAt off = .reserved := by
  decide +kernel

/-- A word offset is either that of a named register or a reserved one. -/
theorem regAt_cases {off : Nat} (h : WordOffset off) : regOffset (regAt off) = some off ∨ regAt off = .reserved :=
  regAt_table off h.2 h.1

/-- Different word offsets hold different registers, reserved ones apart. -/
theorem regAt_injective {off off' : Nat} (h : WordOffset off) (h' : WordOffset off')
    (e : regAt off = regAt off') (hr : regAt off ≠ .reserved) : off = off' := by
  have a := (regAt_cases h).resolve_right hr
  have b := (regAt_cases h').resolve_right (e ▸ hr)
  rw [e, b] at a
  exact (Option.some.inj a).symm

/-! ## Bus writes -/

theorem busWrite_idle {b : Block} (h : b.busy = false) (off : Nat) (v : Word) :
    busWrite off v b = writeReg v b (regAt off) := by simp [busWrite, h]

theorem busWrite_busy {b : Block} (h : b.busy = true) (off : Nat) (v : Word) :
    busWrite off v b = if off = 0x010 then clearStatus v b else dropWrite b := by simp [busWrite, h]

/-- A write to any register but CMD leaves BUSY, PENDING, ERROR and VERDICT as they are. -/
theorem writeReg_sequencer (v : Word) (b : Block) (r : Reg) (h : r ≠ .cmd) :
    (writeReg v b r).busy = b.busy ∧ (writeReg v b r).pending = b.pending
      ∧ (writeReg v b r).error = b.error ∧ (writeReg v b r).verdict = b.verdict := by
  cases r <;> first | exact absurd rfl h | exact ⟨rfl, rfl, rfl, rfl⟩

/-! ## Addresses -/

@[simp] theorem offsetOf_addressOf {off : Nat} (h : off < Config.windowSize) : offsetOf (addressOf off) = some off := by
  simp [offsetOf, addressOf, h]

theorem offsetOf_eq_some {addr off : Nat} (h : offsetOf addr = some off) :
    addr = addressOf off ∧ off < Config.windowSize := by
  simp only [offsetOf, Option.ite_none_right_eq_some, Option.some.injEq] at h
  simp only [addressOf]
  omega

end Sys2Proof.Machine
end

