-- ==== Sys2Proof/Laws/Commands.lean ====
section
/-! SUPPORT. What each command can do, once for all: its body answers in one of the ways listed. -/

namespace Sys2Proof.Machine

/-- The body that a command runs. -/
def bodyOf : Instr → Block → Except CommandError Block
  | .decode => decodeBody
  | .hmac => hmacBody
  | .trunc => truncBody
  | .compare => compareBody
  | .generate => generateBody
  | .verify => verifyBody
  | .zeroize => zeroizeBody
  | .illegal00 => illegalBody
  | .illegal08 _ => illegalBody
  | .illegal10 _ => illegalBody
  | .illegal20 _ => illegalBody
  | .illegal40 _ => illegalBody
  | .illegal80 _ => illegalBody

/-- Every command is its body, committed. -/
theorem exec_eq (i : Instr) (s : State) : exec i s = .next (s.withBlock (commit s.block (bodyOf i s.block))) := by
  cases i <;> rfl

/-- What a next state of a command is. -/
theorem exec_next {i : Instr} {s t : State} (h : exec i s = .next t) :
    t = s.withBlock (commit s.block (bodyOf i s.block)) := by
  rw [exec_eq] at h
  exact (Host.Outcome.next.inj h).symm

theorem b32symbols_eq_none {s : List Byte} : b32symbols s = none ↔ ∃ c ∈ s, b32val c = none := by
  induction s with
  | nil => simp [b32symbols]
  | cons c cs ih =>
    simp only [b32symbols, List.mem_cons, exists_eq_or_imp]
    cases hc : b32val c <;> cases hs : b32symbols cs <;> simp_all

theorem b32symbols_length {s : List Byte} {vs : List Nat} (h : b32symbols s = some vs) : vs.length = s.length := by
  induction s generalizing vs with
  | nil => simp [b32symbols] at h; simp [← h]
  | cons c cs ih =>
    simp only [b32symbols] at h
    split at h
    · rename_i v ws _ hs
      obtain rfl := Option.some.inj h
      simp [ih hs]
    · cases h

theorem b32val_lt {c : Byte} {v : Nat} (h : b32val c = some v) : v < 32 := by
  unfold b32val at h
  split at h
  · obtain rfl := Option.some.inj h; omega
  · split at h
    · obtain rfl := Option.some.inj h; omega
    · split at h
      · obtain rfl := Option.some.inj h; omega
      · cases h

theorem decodeBody_cases (b : Block) :
    (b.secretLen.toNat > 256 ∧ decodeBody b = .error .invalidLength)
      ∨ (b.secretLen.toNat ≤ 256 ∧ b32decode (secretChars b) = none ∧ decodeBody b = .error .invalidCharset)
      ∨ (∃ k, b.secretLen.toNat ≤ 256 ∧ b32decode (secretChars b) = some k ∧ decodeBody b = .ok (writeKey k b)) := by
  unfold decodeBody
  by_cases hn : b.secretLen.toNat > 256
  · exact .inl ⟨hn, if_pos hn⟩
  · rw [if_neg hn]
    cases h : b32decode (secretChars b) with
    | none => exact .inr (.inl ⟨by omega, rfl, rfl⟩)
    | some k => exact .inr (.inr ⟨k, by omega, rfl, rfl⟩)

theorem hmacBody_cases (b : Block) :
    (b.keyLen.toNat > 160 ∧ hmacBody b = .error .invalidLength)
      ∨ (b.keyLen.toNat ≤ 160 ∧ algOf b.ctrlAlg = none ∧ hmacBody b = .error .unsupportedAlgorithm)
      ∨ (∃ a, b.keyLen.toNat ≤ 160 ∧ algOf b.ctrlAlg = some a
          ∧ hmacBody b = .ok (writeDigest (hmac a (keyBytes b) (counterMessage b)) b)) := by
  unfold hmacBody
  by_cases hn : b.keyLen.toNat > 160
  · exact .inl ⟨hn, if_pos hn⟩
  · rw [if_neg hn]
    cases h : algOf b.ctrlAlg with
    | none => exact .inr (.inl ⟨by omega, rfl, rfl⟩)
    | some a => exact .inr (.inr ⟨a, by omega, rfl, rfl⟩)

theorem truncBody_cases (b : Block) :
    (legalDigits b.ctrlDigits = false ∧ truncBody b = .error .invalidDigits)
      ∨ (legalDigits b.ctrlDigits = true ∧ b.digestLen = 0 ∧ truncBody b = .error .noDigest)
      ∨ (legalDigits b.ctrlDigits = true ∧ b.digestLen ≠ 0
          ∧ truncBody b = .ok (writeCode (digestBytes b) b.ctrlDigits.toNat b)) := by
  unfold truncBody
  cases h : legalDigits b.ctrlDigits with
  | false => exact .inl ⟨rfl, by simp⟩
  | true =>
    by_cases h0 : b.digestLen = 0
    · exact .inr (.inl ⟨rfl, h0, by simp [h0]⟩)
    · exact .inr (.inr ⟨rfl, h0, by rw [if_pos rfl, if_neg h0]⟩)

theorem generateKey_cases (b : Block) :
    (b.ctrlKsrc = true ∧ legalSecretLen b.secretLen.toNat = false ∧ generateKey b = .error .invalidLength)
      ∨ (b.ctrlKsrc = true ∧ legalSecretLen b.secretLen.toNat = true ∧ b32decode (secretChars b) = none
          ∧ generateKey b = .error .invalidCharset)
      ∨ (∃ k, b.ctrlKsrc = true ∧ legalSecretLen b.secretLen.toNat = true ∧ b32decode (secretChars b) = some k
          ∧ generateKey b = .ok k)
      ∨ (b.ctrlKsrc = false ∧ b.keyLen.toNat > 160 ∧ generateKey b = .error .invalidLength)
      ∨ (b.ctrlKsrc = false ∧ b.keyLen.toNat ≤ 160 ∧ generateKey b = .ok (keyBytes b)) := by
  unfold generateKey
  cases hk : b.ctrlKsrc with
  | true =>
    cases hl : legalSecretLen b.secretLen.toNat with
    | false => simp
    | true => cases hd : b32decode (secretChars b) <;> simp
  | false =>
    by_cases h : b.keyLen.toNat > 160
    · simp [h]
    · simp [h]; omega

theorem generateBody_cases (b : Block) :
    (∃ e, generateKey b = .error e ∧ generateBody b = .error e)
      ∨ (∃ k, generateKey b = .ok k ∧ legalDigits b.ctrlDigits = false ∧ generateBody b = .error .invalidDigits)
      ∨ (∃ k, generateKey b = .ok k ∧ legalDigits b.ctrlDigits = true ∧ algOf b.ctrlAlg = none
          ∧ generateBody b = .error .unsupportedAlgorithm)
      ∨ (∃ k a, generateKey b = .ok k ∧ legalDigits b.ctrlDigits = true ∧ algOf b.ctrlAlg = some a
          ∧ generateBody b = .ok (generateResults k a b)) := by
  unfold generateBody generateChecks
  cases hk : generateKey b with
  | error e => simp
  | ok k =>
    cases hd : legalDigits b.ctrlDigits with
    | false => simp
    | true => cases ha : algOf b.ctrlAlg <;> simp

theorem verifyBody_cases (b : Block) :
    (∃ e, generateBody b = .error e ∧ verifyBody b = .error e)
      ∨ (∃ c, generateBody b = .ok c ∧ verifyBody b = .ok (writeVerdict c)) := by
  unfold verifyBody
  cases h : generateBody b <;> simp

/-- Everything a command's body can write when it answers a block: which command it is, under which operands,
and the block as the shared result writes give it. -/
theorem bodyOf_ok {i : Instr} {b c : Block} (h : bodyOf i b = .ok c) :
    (i = .decode ∧ ∃ k, b.secretLen.toNat ≤ 256 ∧ b32decode (secretChars b) = some k ∧ c = writeKey k b)
      ∨ (i = .hmac ∧ ∃ a, b.keyLen.toNat ≤ 160 ∧ algOf b.ctrlAlg = some a
          ∧ c = writeDigest (hmac a (keyBytes b) (counterMessage b)) b)
      ∨ (i = .trunc ∧ legalDigits b.ctrlDigits = true ∧ b.digestLen ≠ 0
          ∧ c = writeCode (digestBytes b) b.ctrlDigits.toNat b)
      ∨ (i = .compare ∧ c = writeVerdict b)
      ∨ (i = .generate ∧ ∃ k a, generateKey b = .ok k ∧ legalDigits b.ctrlDigits = true ∧ algOf b.ctrlAlg = some a
          ∧ c = generateResults k a b)
      ∨ (i = .verify ∧ ∃ k a, generateKey b = .ok k ∧ legalDigits b.ctrlDigits = true ∧ algOf b.ctrlAlg = some a
          ∧ c = writeVerdict (generateResults k a b))
      ∨ (i = .zeroize ∧ c = clearData b) := by
  cases i with
  | decode =>
    rcases decodeBody_cases b with ⟨_, e⟩ | ⟨_, _, e⟩ | ⟨k, hn, hd, e⟩ <;> rw [bodyOf, e] at h <;> cases h
    exact .inl ⟨rfl, k, hn, hd, rfl⟩
  | hmac =>
    rcases hmacBody_cases b with ⟨_, e⟩ | ⟨_, _, e⟩ | ⟨a, hn, ha, e⟩ <;> rw [bodyOf, e] at h <;> cases h
    exact .inr (.inl ⟨rfl, a, hn, ha, rfl⟩)
  | trunc =>
    rcases truncBody_cases b with ⟨_, e⟩ | ⟨_, _, e⟩ | ⟨hd, hn, e⟩ <;> rw [bodyOf, e] at h <;> cases h
    exact .inr (.inr (.inl ⟨rfl, hd, hn, rfl⟩))
  | compare =>
    cases h
    exact .inr (.inr (.inr (.inl ⟨rfl, rfl⟩)))
  | generate =>
    rcases generateBody_cases b with ⟨_, _, e⟩ | ⟨_, _, _, e⟩ | ⟨_, _, _, _, e⟩ | ⟨k, a, hk, hd, ha, e⟩ <;>
      rw [bodyOf, e] at h <;> cases h
    exact .inr (.inr (.inr (.inr (.inl ⟨rfl, k, a, hk, hd, ha, rfl⟩))))
  | verify =>
    rcases verifyBody_cases b with ⟨_, _, e⟩ | ⟨g, hg, e⟩ <;> rw [bodyOf, e] at h <;> cases h
    rcases generateBody_cases b with ⟨_, _, e⟩ | ⟨_, _, _, e⟩ | ⟨_, _, _, _, e⟩ | ⟨k, a, hk, hd, ha, e⟩ <;>
      rw [e] at hg <;> cases hg
    exact .inr (.inr (.inr (.inr (.inr (.inl ⟨rfl, k, a, hk, hd, ha, rfl⟩)))))
  | zeroize =>
    cases h
    exact .inr (.inr (.inr (.inr (.inr (.inr ⟨rfl, rfl⟩)))))
  | illegal00 => cases h
  | illegal08 _ => cases h
  | illegal10 _ => cases h
  | illegal20 _ => cases h
  | illegal40 _ => cases h
  | illegal80 _ => cases h

/-- What a command leaves to be seen: its next block is its body's block completed, or its old block with an error. -/
theorem exec_cases {i : Instr} {s t : State} (h : exec i s = .next t) :
    (∃ c, bodyOf i s.block = .ok c ∧ t = s.withBlock (complete c))
      ∨ (∃ e, bodyOf i s.block = .error e ∧ t = s.withBlock (raise e s.block)) := by
  rw [exec_next h]
  rcases commit_cases s.block (bodyOf i s.block) with ⟨c, hc, e⟩ | ⟨c, hc, e⟩ <;> rw [e]
  · exact .inl ⟨c, hc, rfl⟩
  · exact .inr ⟨c, hc, rfl⟩

theorem legalDigits_iff (d : BitVec 4) : legalDigits d = true ↔ d = 6 ∨ d = 7 ∨ d = 8 := by
  revert d; decide

theorem algOf_eq_none (a : BitVec 2) : algOf a = none ↔ a = 3 := by
  revert a; decide

end Sys2Proof.Machine
end

