-- ==== Sys2Proof/Laws/PerInstr.lean ====
section
/-! SUPPORT. Facts about every command as syntax, one lemma per constructor. -/

namespace Sys2Proof.Laws.RowFit

/-- The bus word of a well-formed command has the fixed bits of the command's own row of the opcode table. -/
def Statement (i : Instr) : Prop :=
  i.WellFormed = true → ∃ r, opcodeTable[i.rowIndex]? = some r ∧ r.fits (encode i) = true

theorem decode : Statement .decode := fun _ => ⟨_, rfl, by decide⟩
theorem hmac : Statement .hmac := fun _ => ⟨_, rfl, by decide⟩
theorem trunc : Statement .trunc := fun _ => ⟨_, rfl, by decide⟩
theorem compare : Statement .compare := fun _ => ⟨_, rfl, by decide⟩
theorem generate : Statement .generate := fun _ => ⟨_, rfl, by decide⟩
theorem verify : Statement .verify := fun _ => ⟨_, rfl, by decide⟩
theorem zeroize : Statement .zeroize := fun _ => ⟨_, rfl, by decide⟩
theorem illegal00 : Statement .illegal00 := fun _ => ⟨_, rfl, by decide⟩
theorem illegal08 (code : BitVec 8) : Statement (.illegal08 code) := fun h => ⟨_, rfl, by revert h code; decide⟩
theorem illegal10 (code : BitVec 8) : Statement (.illegal10 code) := fun h => ⟨_, rfl, by revert h code; decide⟩
theorem illegal20 (code : BitVec 8) : Statement (.illegal20 code) := fun h => ⟨_, rfl, by revert h code; decide⟩
theorem illegal40 (code : BitVec 8) : Statement (.illegal40 code) := fun h => ⟨_, rfl, by revert h code; decide⟩
theorem illegal80 (code : BitVec 8) : Statement (.illegal80 code) := fun h => ⟨_, rfl, by revert h code; decide⟩

end Sys2Proof.Laws.RowFit
end

