-- ==== Sys2Proof/Laws/Step.lean ====
section
/-! SUPPORT. What a step can be: the turn of one agent. -/

namespace Sys2Proof.Machine

/-- The turn that is taken and the state it is taken in. -/
theorem takeTurn_cases (s : State) :
    (∃ t rest, s.schedule = t :: rest ∧ takeTurn s = (t, s.withSchedule rest))
      ∨ (s.schedule = [] ∧ s.block.busy = true ∧ takeTurn s = (.engine, s))
      ∨ (s.schedule = [] ∧ s.block.busy = false ∧ takeTurn s = (.host, s)) := by
  unfold takeTurn
  cases h : s.schedule with
  | nil => cases hb : s.block.busy <;> simp
  | cons t rest => exact .inl ⟨t, rest, rfl, rfl⟩

/-- The engine's turn: the completion of the command in progress, or nothing. -/
theorem engineTurn_cases (s : State) :
    (s.block.busy = true ∧ s.resetAsserted = false ∧ engineTurn s = exec (pendingInstr s.block) s)
      ∨ ((s.block.busy = false ∨ s.resetAsserted = true) ∧ engineTurn s = .next s) := by
  unfold engineTurn
  cases hb : s.block.busy <;> cases hr : s.resetAsserted <;> simp

/-- What a write does to the block: nothing, or a bus write at a word offset with reset released. -/
theorem writeEffect_cases (addr : Nat) (size : AccessSize) (v : Word) (s : State) :
    writeEffect addr size v s = s.block
      ∨ (∃ off, offsetOf addr = some off ∧ s.resetAsserted = false ∧ WordOffset off ∧ size = .word
          ∧ writeEffect addr size v s = busWrite off v s.block) := by
  unfold writeEffect
  cases ho : offsetOf addr with
  | none => exact .inl rfl
  | some off =>
    cases hr : s.resetAsserted with
    | true => simp
    | false =>
      cases hl : legalAccess off size with
      | false => exact .inl (by simp [hl])
      | true =>
        have hw : size = .word ∧ off % 4 = 0 := by simpa [legalAccess] using hl
        exact .inr ⟨off, rfl, rfl, ⟨hw.2, (offsetOf_eq_some ho).2⟩, hw.1, by simp [hl]⟩

/-- What the host's turn does to the block and to the reset input. -/
theorem hostTurn_cases (s : State) :
    (hostTurn s).resetAsserted = s.resetAsserted ∧ (hostTurn s).schedule = s.schedule
      ∧ ((hostTurn s).block = s.block
          ∨ ∃ addr v rest off, s.program = .write addr .word v :: rest ∧ offsetOf addr = some off
              ∧ s.resetAsserted = false ∧ WordOffset off ∧ (hostTurn s).block = busWrite off v s.block) := by
  unfold hostTurn
  cases h : s.program with
  | nil => simp
  | cons stmt rest =>
    cases stmt with
    | read addr size => simp [performStmt]
    | wait => simp [performStmt]
    | write addr size v =>
      refine ⟨rfl, rfl, ?_⟩
      rcases writeEffect_cases addr size v s with he | ⟨off, ho, hr, hw, hs, he⟩
      · exact .inl he
      · subst hs
        exact .inr ⟨addr, v, rest, off, rfl, ho, hr, hw, he⟩

/-- Every step answers a next state: one of the host's turn, the engine's turn and a level of the reset input,
taken in the state with that turn off the schedule. -/
theorem step_cases (s : State) :
    ∃ turns, (step s = .next (hostTurn (s.withSchedule turns)))
      ∨ (s.block.busy = true ∧ s.resetAsserted = false
          ∧ step s = exec (pendingInstr s.block) (s.withSchedule turns))
      ∨ (step s = .next (s.withSchedule turns))
      ∨ (∃ a, step s = .next (resetTurn a (s.withSchedule turns))) := by
  unfold step
  rcases takeTurn_cases s with ⟨t, rest, _, ht⟩ | ⟨hs, _, ht⟩ | ⟨hs, _, ht⟩
  · refine ⟨rest, ?_⟩
    rw [ht]
    cases t with
    | host => exact .inl rfl
    | resetPin a => exact .inr (.inr (.inr ⟨a, rfl⟩))
    | engine =>
      rcases engineTurn_cases (s.withSchedule rest) with ⟨hb, hr, he⟩ | ⟨_, he⟩
      · exact .inr (.inl ⟨hb, hr, he⟩)
      · exact .inr (.inr (.inl he))
  · have e : s.withSchedule [] = s := by cases s; cases hs; rfl
    refine ⟨[], ?_⟩
    rw [ht, e]
    rcases engineTurn_cases s with ⟨hb, hr, he⟩ | ⟨_, he⟩
    · exact .inr (.inl ⟨hb, hr, he⟩)
    · exact .inr (.inr (.inl he))
  · have e : s.withSchedule [] = s := by cases s; cases hs; rfl
    refine ⟨[], ?_⟩
    rw [ht, e]
    exact .inl rfl

/-- With the host to move and a statement at the head of its program, a step performs that statement. -/
theorem step_of_hostAt {s : State} {stmt : HostStmt} {rest : List HostStmt} {turns : List Turn}
    (h : s.HostAt stmt rest turns) : step s = .next (performStmt stmt rest (s.withSchedule turns)) := by
  obtain ⟨_, hp, h | ⟨hs, rfl, hb⟩⟩ := h
  · simp [step, takeTurn, h, runTurn, hostTurn, hp, State.withSchedule]
  · have e : s.withSchedule [] = s := by cases s; cases hs; rfl
    rw [e]
    simp [step, takeTurn, hs, runTurn, hostTurn, hp, hb]

/-- A whole-word write at a word offset, with reset released, is the bus write. -/
theorem writeEffect_word {s : State} {off : Nat} (hw : WordOffset off) (hr : s.resetAsserted = false) (v : Word) :
    writeEffect (addressOf off) .word v s = busWrite off v s.block := by
  simp [writeEffect, offsetOf_addressOf hw.2, hr, legalAccess, hw.1]

/-- A whole-word read at a word offset, with reset released, answers the bus read. -/
theorem readResponse_word {s : State} {off : Nat} (hw : WordOffset off) (hr : s.resetAsserted = false) :
    readResponse (addressOf off) .word s = .readData (busRead s.block off) := by
  simp [readResponse, offsetOf_addressOf hw.2, hr, legalAccess, hw.1]

end Sys2Proof.Machine
end

