-- ==== Sys2Proof/Tests/Slice0.lean ====
section
/-! SUPPORT. Tests. The expected results are those of spec/95_test_vectors.md (the row is named in each docstring)
or are written out from the rule named; and for every statement with hypotheses, a state and operands that meet them. -/

namespace Sys2Proof.Tests

open Sys2Proof Sys2Proof.Machine

/-! ## Helpers -/

/-- The reset machine with another block. -/
def withB (b : Block) : State := State.reset.withBlock b

/-- The block after a step, where there is a next state. -/
def blockOf (o : Host.Outcome State Fault Refusal) : Option Block :=
  match o with
  | .next s => some s.block
  | .fault _ => none
  | .refused _ => none

/-- A value of the block after a command. -/
def after {α : Type} (i : Instr) (b : Block) (f : Block → α) : Option α := (blockOf (exec i (withB b))).map f

/-- A block with a secret. -/
def secretB (text : String) : Block :=
  { Block.reset with secret := Buf.ofBytes 256 (asciiBytes text), secretLen := BitVec.ofNat 32 text.length }

/-- A block with a raw key, the counter, and the CTRL fields ALG and DIGITS. -/
def keyB (key : List Byte) (c : Nat) (alg : BitVec 2) (digits : BitVec 4) : Block :=
  { Block.reset with
    key := Buf.ofBytes 160 key
    keyLen := BitVec.ofNat 32 key.length
    counterHi := BitVec.ofNat 32 (c >>> 32)
    counterLo := BitVec.ofNat 32 c
    ctrlAlg := alg
    ctrlDigits := digits
    ctrlKsrc := false }

/-- The 20-byte key of RFC 4226. -/
def rfcKey : List Byte := asciiBytes "12345678901234567890"

/-- A block that holds a digest, with the CTRL field DIGITS. -/
def digestB (d : List Byte) (digits : BitVec 4) : Block :=
  { Block.reset with digest := Buf.ofBytes 64 d, digestLen := BitVec.ofNat 32 d.length, ctrlDigits := digits }

/-- A block that holds a code and a candidate. -/
def codeB (code cand : String) (candLen : Word) : Block :=
  { Block.reset with
    codeAscii := Buf.ofBytes 8 (asciiBytes code)
    codeLen := BitVec.ofNat 32 code.length
    cand := Buf.ofBytes 8 (asciiBytes cand)
    candLen := candLen }

/-- A block with a candidate. -/
def withCand (cand : String) (b : Block) : Block :=
  { b with cand := Buf.ofBytes 8 (asciiBytes cand), candLen := BitVec.ofNat 32 cand.length }

/-- A block in which a command has been issued. -/
def busyB (i : Instr) : Block := issue (encodeCode i) Block.reset

/-- A machine at which the host moves next and performs one statement. -/
def hostAtS (b : Block) (stmt : HostStmt) (turns : List Turn) : State :=
  { withB b with program := [stmt], schedule := .host :: turns }

/-! ## Well-formedness: for each range row a code outside it -/

theorem test_wf_refuses_illegal08 : (Instr.illegal08 0x10#8).WellFormed = false := by decide
theorem test_wf_refuses_illegal10 : (Instr.illegal10 0x20#8).WellFormed = false := by decide
theorem test_wf_refuses_illegal20 : (Instr.illegal20 0x1F#8).WellFormed = false := by decide
theorem test_wf_refuses_illegal40 : (Instr.illegal40 0x80#8).WellFormed = false := by decide
theorem test_wf_refuses_illegal80 : (Instr.illegal80 0x7F#8).WellFormed = false := by decide

/-! ## Decoding: words written out from R103 and the table's rows, bit 31 first -/

theorem test_decode_decode : decode 0b00000000000000000000000000000001#32 = .decode := by decide
theorem test_decode_hmac : decode 0b00000000000000000000000000000010#32 = .hmac := by decide
theorem test_decode_trunc : decode 0b00000000000000000000000000000011#32 = .trunc := by decide
theorem test_decode_compare : decode 0b00000000000000000000000000000100#32 = .compare := by decide
/-- R104: bits [31:8] are ignored (the word of row Z5). -/
theorem test_decode_generate : decode 0b00010010001101000101011000000101#32 = .generate := by decide
theorem test_decode_verify : decode 0b00000000000000000000000000000110#32 = .verify := by decide
theorem test_decode_zeroize : decode 0b00000000000000000000000000000111#32 = .zeroize := by decide
theorem test_decode_illegal00 : decode 0b11111111111111111111111100000000#32 = .illegal00 := by decide
theorem test_decode_illegal08 : decode 0b00000000000000000000000000001111#32 = .illegal08 0x0F#8 := by decide
theorem test_decode_illegal10 : decode 0b00000000000000000000000000010000#32 = .illegal10 0x10#8 := by decide
theorem test_decode_illegal20 : decode 0b00000000000000000000000000111111#32 = .illegal20 0x3F#8 := by decide
theorem test_decode_illegal40 : decode 0b00000000000000000000000001000000#32 = .illegal40 0x40#8 := by decide
theorem test_decode_illegal80 : decode 0b00000000000000000000000010000000#32 = .illegal80 0x80#8 := by decide
theorem test_decode_rejects_narrow : decodeLanes [0x05#8] = .error .narrow := by decide
theorem test_decode_rejects_wide : decodeLanes [0x05#8, 0#8, 0#8, 0#8, 0#8] = .error .wide := by decide

/-! ## The commands -/

/-- Row D6. -/
theorem test_DECODE_foobar :
    after .decode (secretB "MZXW6YTBOI") (fun b => (b.error, b.keyLen, b.key.bytes.take 7))
      = some (0, 6, [0x66#8, 0x6F#8, 0x6F#8, 0x62#8, 0x61#8, 0x72#8, 0x00#8]) := by decide +kernel
/-- Row D16. -/
theorem test_DECODE_bad_char :
    after .decode (secretB "MZXW8YTB") (fun b => (b.error, b.err, b.keyLen, b.key.byte 0)) = some (2, true, 0, 0) := by
  decide +kernel
/-- Row H6: a key longer than the block size of SHA-512, and the largest counter. -/
theorem test_HMAC_sha512 :
    after .hmac (keyB ((List.range 160).map (BitVec.ofNat 8)) 0xffffffffffffffff 2 6)
        (fun b => (b.digestLen, b.digest.bytes))
      = some (64, be 32 0x06d1a9b4cdfad18f806bc1ef408b9f9d357b018635efbf46a07c09264a9a517d
          ++ be 32 0x8ca76565454fcde737ad66ecb76aff571935d054d49a32c68832852e2e10f75a) := by decide +kernel
/-- The last row of 95_test_vectors.md section 5: both halves of the counter, under SHA-256. -/
theorem test_HMAC_counter_halves :
    after .hmac (keyB rfcKey 0x0123456789ABCDEF 1 6) (fun b => b.digest.bytes.take 32)
      = some (be 32 0x9bb75018096a35ca694d6750a3ad7f2de7d7ddf5ff26b3080d34aaf498a60317) := by decide +kernel
/-- Rows three and five of the examples of R152. -/
theorem test_counter_examples :
    counterMessage (keyB [] (1111111109 / 30) 0 6) = [0x00#8, 0x00#8, 0x00#8, 0x00#8, 0x02#8, 0x35#8, 0x23#8, 0xEC#8]
      ∧ counterMessage (keyB [] 0x0123456789ABCDEF 0 6)
          = [0x01#8, 0x23#8, 0x45#8, 0x67#8, 0x89#8, 0xAB#8, 0xCD#8, 0xEF#8] := by decide +kernel
/-- The digest example of R224 (95_test_vectors.md section 2). -/
theorem test_TRUNC_rfc4226 :
    after .trunc (digestB (be 20 0x1f8698690e02ca16618550ef7f19da8e945b555a) 6)
        (fun b => (b.truncOff, b.truncVal, b.codeBin, b.codeLen, b.codeAscii))
      = some (10, 1357872921, 872921, 6, Buf.ofBytes 8 (asciiBytes "872921")) := by decide +kernel
/-- The digest of count 4 at 7 digits: a code with a leading zero (row T6). -/
theorem test_TRUNC_leading_zero :
    after .trunc (digestB (be 20 0xa904c900a64b35909874b33e61c5938a8e15ed1c) 7) (fun b => (b.codeBin, b.codeAscii))
      = some (338314, Buf.ofBytes 8 (asciiBytes "0338314")) := by decide +kernel
/-- Row K2. -/
theorem test_COMPARE_valid : after .compare (codeB "287082" "28708299" 6) (fun b => b.verdict) = some 1 := by decide +kernel
/-- Row K7. -/
theorem test_COMPARE_all_bits_of_the_length :
    after .compare (codeB "287082" "287082" 0x106) (fun b => b.verdict) = some 2 := by decide +kernel
/-- Row G16. -/
theorem test_GENERATE_raw_key :
    after .generate (keyB rfcKey 37037036 0 8) (fun b => (b.error, b.truncOff, b.truncVal, b.codeAscii))
      = some (0, 4, 907081804, Buf.ofBytes 8 (asciiBytes "07081804")) := by decide +kernel
/-- Row G7. -/
theorem test_GENERATE_first_error :
    after .generate { secretB "GEZDGNBVGY3TQOJ1G" with ctrlAlg := 3, ctrlDigits := 10 } (fun b => b.error) = some 1 := by
  decide +kernel
/-- The T = 59 row of SHA-256 in section 3. -/
theorem test_VERIFY_sha256 :
    after .verify (withCand "46119246" (keyB (asciiBytes "12345678901234567890123456789012") 1 1 8))
        (fun b => (b.error, b.verdict, b.digest.bytes.take 32))
      = some (0, 1, be 32 0x392514c9dd4165d4709456062c78e04e16e68718515951333bdb8b26caa3053c) := by decide +kernel
/-- Row V3. -/
theorem test_VERIFY_digits_mismatch :
    after .verify (withCand "287082" (keyB rfcKey 1 0 8)) (fun b => (b.error, b.verdict, b.codeAscii))
      = some (0, 2, Buf.ofBytes 8 (asciiBytes "94287082")) := by decide +kernel
/-- Row Z1: CTRL keeps its value. -/
theorem test_ZEROIZE :
    after .zeroize (keyB rfcKey 1 0 6) (fun b => (b.key, b.keyLen, b.counterLo, ctrlWord b, statusWord b))
      = some (Buf.zero 160, 0, 0, 0x60, 0x2) := by decide +kernel
/-- Row Z2. -/
theorem test_ILLEGAL_00 : after .illegal00 (keyB rfcKey 1 0 6) (fun b => (b.error, statusWord b, b.keyLen)) = some (6, 0x6, 20) := by
  decide +kernel
/-- Row Z3. -/
theorem test_ILLEGAL_08 : after (.illegal08 0x08#8) (busyB (.illegal08 0x08#8)) (fun b => (b.error, statusWord b)) = some (6, 0x6) := by
  decide +kernel
/-- R275 on the code 0x10. -/
theorem test_ILLEGAL_10 : after (.illegal10 0x10#8) (busyB (.illegal10 0x10#8)) (fun b => (b.error, b.verdict)) = some (6, 0) := by
  decide +kernel
/-- R275 on the code 0x20. -/
theorem test_ILLEGAL_20 : after (.illegal20 0x20#8) (busyB (.illegal20 0x20#8)) (fun b => (b.error, b.err)) = some (6, true) := by
  decide +kernel
/-- R275 on the code 0x40. -/
theorem test_ILLEGAL_40 : after (.illegal40 0x40#8) (busyB (.illegal40 0x40#8)) (fun b => (b.error, b.busy)) = some (6, false) := by
  decide +kernel
/-- Row Z4. -/
theorem test_ILLEGAL_80 : after (.illegal80 0xFF#8) (busyB (.illegal80 0xFF#8)) (fun b => (b.error, statusWord b)) = some (6, 0x6) := by
  decide +kernel

/-! ## Fetching and stepping -/

/-- The engine runs the placed command, here the word of row Z5. -/
theorem test_step_runs_the_placed_word :
    (blockOf (step ((withB (keyB rfcKey 1 0 6)).withFetchWord 32 0x12345605))).map (fun b => (b.codeAscii, statusWord b))
      = some (Buf.ofBytes 8 (asciiBytes "287082"), 0x2) := by decide +kernel
/-- R270: ZEROIZE as the first command after reset. -/
theorem test_step_after_reset : blockOf (step (State.reset.withFetchWord 8 0x07))
    = some { Block.reset with pending := 0x07#8, done := true } := by decide +kernel
theorem test_table_word_too_wide : decodeTableWord 40 0x05 = none := by decide

/-! ## Bus vectors -/

/-- Row B3. -/
theorem test_bus_ctrl_reserved_bits : busRead (busWrite 0x008 0xFFFFFFFF#32 Block.reset) 0x008 = 0x000003F3#32 := by
  decide +kernel
/-- Row B11. -/
theorem test_bus_status_w1c :
    busRead (busWrite 0x010 0x8#32 { Block.reset with done := true, err := true, wbusy := true }) 0x010 = 0x6#32 := by
  decide +kernel
/-- Row B15: byte 0 of a buffer is bits [31:24] of its first word. -/
theorem test_bus_byte_order : (busWrite 0x050 0x39343238#32 Block.reset).cand.byte 0 = 0x39#8
    ∧ busRead (busWrite 0x050 0x39343238#32 Block.reset) 0x050 = 0x39343238#32 := by decide +kernel
/-- Row B10. -/
theorem test_bus_busy_status : busRead (busWrite 0x010 0x8#32 { busyB .generate with wbusy := true }) 0x010 = 0x1#32 := by
  decide +kernel

/-! ## Witnesses: every statement's hypotheses can be met, each clause at the ends of its range

A witness's name is `witness_` and the statement's name, with the clause where there are several. -/

/-- Both ends of every range row are well formed. -/
theorem witness_DecodeAndEncodeAgree :
    (Instr.illegal08 0x08#8).WellFormed = true ∧ (Instr.illegal08 0x0F#8).WellFormed = true
      ∧ (Instr.illegal10 0x10#8).WellFormed = true ∧ (Instr.illegal10 0x1F#8).WellFormed = true
      ∧ (Instr.illegal20 0x20#8).WellFormed = true ∧ (Instr.illegal20 0x3F#8).WellFormed = true
      ∧ (Instr.illegal40 0x40#8).WellFormed = true ∧ (Instr.illegal40 0x7F#8).WellFormed = true
      ∧ (Instr.illegal80 0x80#8).WellFormed = true ∧ (Instr.illegal80 0xFF#8).WellFormed = true
      ∧ Instr.zeroize.WellFormed = true := by decide

theorem witness_EveryWordMatchesExactlyItsRow :
    (opcodeTable[0]?).map Row.matchBits = some 0x01#32 ∧ (opcodeTable[12]?).map Row.matchBits = some 0x80#32
      ∧ (opcodeTable[13]?).isNone = true := by decide

theorem witness_DecoderTakesWholeWordsOnly :
    ([] : List Byte).length < 4 ∧ [0#8, 0#8, 0#8].length < 4 ∧ 4 < [0#8, 0#8, 0#8, 0#8, 0#8].length := by decide

/-- The first and the last word of the window, for every statement over word offsets. -/
theorem witness_word_offsets : WordOffset 0x000 ∧ WordOffset 0x3FC ∧ ¬WordOffset 0x400 ∧ ¬WordOffset 0x002 := by
  unfold WordOffset; decide

/-- Both ends of the reserved ranges, and their neighbours. -/
theorem witness_ReservedOffsetsReadZeroIgnoreWrites :
    (∀ off ∈ [0x058, 0x07C, 0x0C0, 0x0FC, 0x2A0, 0x3FC], WordOffset off ∧ ReservedOffset off)
      ∧ (∀ off ∈ [0x054, 0x080, 0x0BC, 0x100, 0x29C, 0x400], ¬ReservedOffset off)
      ∧ Block.reset.busy = false ∧ (busyB .hmac).busy = true := by
  unfold WordOffset ReservedOffset; decide

theorem witness_ResetAbandonsTheCommand :
    ({ withB (busyB .generate) with schedule := [.resetPin true] } : State).schedule = .resetPin true :: []
      ∧ ({ State.reset with resetAsserted := true } : State).block = Block.reset
      ∧ ({ State.reset with resetAsserted := true, program := [writeStmt 0x008 0#32], schedule := [.host] } : State).program
          = .write (addressOf 0x008) .word 0#32 :: []
      ∧ ({ State.reset with resetAsserted := true, program := [.wait], schedule := [.host] } : State).program
          = .wait :: [] := ⟨rfl, rfl, rfl, rfl⟩

theorem witness_BusReadReturnsTheStoredValue :
    (hostAtS (busyB .generate) (readStmt 0x3FC) []).HostAt (readStmt 0x3FC) [] [] := ⟨rfl, rfl, .inl rfl⟩

/-- The clauses: a stored word at both ends of the buffers, CTRL, STATUS, CMD and an offset that ignores writes. -/
theorem witness_IdleWriteStoresExactlyItsRegister :
    Block.reset.busy = false
      ∧ (∀ off ∈ [0x018, 0x01C, 0x020, 0x024, 0x03C, 0x050, 0x054, 0x100, 0x1FC, 0x200, 0x29C],
          WordOffset off ∧ WritableWord off)
      ∧ ∀ off ∈ [0x000, 0x008, 0x00C, 0x010, 0x014, 0x028, 0x038, 0x040, 0x04C, 0x058, 0x0FC, 0x2A0], ¬WritableWord off := by
  unfold WordOffset WritableWord; decide

theorem witness_IdleWriteStep :
    (hostAtS Block.reset (writeStmt 0x00C 5#32) [.engine]).HostAt (writeStmt 0x00C 5#32) [] [.engine] :=
  ⟨rfl, rfl, .inl rfl⟩

/-- The schedule's end hands the turn to the host where no command is in progress. -/
theorem witness_HostAt_empty_schedule :
    ({ State.reset with program := [readStmt 0] } : State).HostAt (readStmt 0) [] [] :=
  ⟨rfl, rfl, .inr ⟨rfl, rfl, rfl⟩⟩

theorem witness_BusyWriteIsDroppedAndFlagged :
    (busyB .generate).busy = true
      ∧ ({ withB (busyB .generate) with schedule := [.host, .host, .engine] } : State).schedule
          = List.replicate 2 .host ++ [.engine] := ⟨rfl, rfl⟩

theorem witness_MisalignedOrNarrowIsABusError :
    0x3FF < 0x400 ∧ 0x3FF % 4 ≠ 0 ∧ AccessSize.byte ≠ .word ∧ AccessSize.half ≠ .word
      ∧ (hostAtS Block.reset (.read (addressOf 0x3FF) .word) []).HostAt (.read (addressOf 0x3FF) .word) [] []
      ∧ (hostAtS Block.reset (.write (addressOf 0x000) .byte 5#32) []).HostAt (.write (addressOf 0x000) .byte 5#32) [] [] :=
  ⟨by decide, by decide, by decide, by decide, ⟨rfl, rfl, .inl rfl⟩, ⟨rfl, rfl, .inl rfl⟩⟩

theorem witness_OutsideTheWindow :
    Config.base + 0x400 ≤ addressOf 0x400
      ∧ (hostAtS Block.reset (.write (addressOf 0x400) .word 5#32) []).HostAt (.write (addressOf 0x400) .word 5#32) [] [] :=
  ⟨Nat.le_refl _, ⟨rfl, rfl, .inl rfl⟩⟩

theorem witness_RepeatedWriteChangesNothing : WordOffset 0x010 ∧ (0x010 : Nat) ≠ 0x00C := by unfold WordOffset; decide

/-- The longest and the shortest byte string of WBYTES. -/
theorem witness_WbytesFillsTheSecret :
    ∀ n ∈ [0, 1, 256], ({ State.reset with program := bytesStmts 0x100 (List.replicate n 0xFF#8) } : State).program
        = bytesStmts 0x100 (List.replicate n 0xFF#8)
      ∧ (List.replicate n 0xFF#8).length ≤ 256 ∧ Block.reset.busy = false ∧ State.reset.schedule = [] :=
  fun n hn => ⟨rfl, by simp at hn ⊢; omega, rfl, rfl⟩

theorem witness_StepRunsThePendingCommand :
    ({ withB (busyB .verify) with schedule := [.engine] } : State).EngineAt []
      ∧ (withB (busyB .verify)).EngineAt [] ∧ decodeTableWord 32 0x12345605 = some .generate
      ∧ decodeTableWord 8 0x80 = some (.illegal80 0x80#8) :=
  ⟨⟨rfl, rfl, .inl rfl⟩, ⟨rfl, rfl, .inr ⟨rfl, rfl⟩⟩, by decide, by decide⟩

/-- An issue: a step from idle to busy. For BusyChangesOnlyByIssueCompletionOrReset. -/
theorem witness_issue_step :
    ∃ s t : State, step s = .next t ∧ s.block.busy = false ∧ t.block.busy = true := by
  refine ⟨hostAtS Block.reset (writeStmt 0x00C 5#32) [], _, step_of_hostAt ⟨rfl, rfl, .inl rfl⟩, rfl, ?_⟩
  simp only [writeStmt, performStmt]
  rw [writeEffect_word (by unfold WordOffset; decide) rfl]
  decide

/-- A completion: a step from busy to idle, which asserts IRQ where IE = 1 and here sets VERDICT. For
BusyChangesOnlyByIssueCompletionOrReset, IrqFollowsCompletion and ResultsStayUntilRewritten. -/
theorem witness_completion_step :
    ∃ s t : State, step s = .next t ∧ s.block.busy = true ∧ t.block.busy = false ∧ t.resetAsserted = false
      ∧ irq s.block = false ∧ irq t.block = true ∧ t.block.verdict ≠ s.block.verdict ∧ t.block.verdict ≠ 0 := by
  refine ⟨withB { busyB .compare with ctrlIe := true }, _, rfl, rfl, rfl, rfl, rfl, rfl, ?_, ?_⟩ <;> decide +kernel

/-- Reset takes a busy block to idle. -/
theorem witness_reset_step :
    ∃ s t : State, step s = .next t ∧ s.block.busy = true ∧ t.block.busy = false :=
  ⟨{ withB (busyB .hmac) with schedule := [.resetPin true] }, _, rfl, rfl, rfl⟩

/-- IE = 1 over a DONE that already stands raises IRQ. -/
theorem witness_IrqFollowsCompletion :
    ∃ s t : State, step s = .next t ∧ irq s.block = false ∧ irq t.block = true ∧ s.block.ctrlIe = false := by
  refine ⟨hostAtS { Block.reset with done := true } (writeStmt 0x008 0x200#32) [], _, step_of_hostAt ⟨rfl, rfl, .inl rfl⟩, rfl, ?_, rfl⟩
  simp only [writeStmt, performStmt]
  rw [writeEffect_word (by unfold WordOffset; decide) rfl]
  decide

theorem witness_IrqIsTakenAway :
    (0x2#32).getLsbD 1 = true ∧ (0x160#32).getLsbD 9 = false ∧ Block.reset.busy = false := by decide

theorem witness_IdleBlockKeepsEveryRegister :
    State.reset.block.busy = false ∧ State.reset.program = [] ∧ State.reset.schedule = []
      ∧ ({ State.reset with schedule := [.engine] } : State).schedule = .engine :: [] := ⟨rfl, rfl, rfl, rfl⟩

/-- A command that ends with an error, alone from reset: TRUNC with no digest (row T12). For ErrorIsPrecise and
ErrorIsClearedByStatusOrIssueAndRepeats. -/
theorem witness_error_completion :
    ∃ t, exec .trunc State.reset = .next t ∧ commandAlone .trunc State.reset
        = .next (t.withBlock { t.block with pending := 0x03#8 }) ∧ t.block.error ≠ 0
      ∧ ∃ u, commandAlone .trunc t = .next u := ⟨_, rfl, rfl, by decide, _, rfl⟩

/-- Every command answers a next state. For FrameOfTheUnitCommands, FrameOfTheCompositeCommands and
FirstFailingCheckIsReported. -/
theorem witness_frames :
    ∃ t₁ t₂ t₃ t₄ t₅ t₆ : State, exec .decode State.reset = .next t₁ ∧ exec .hmac State.reset = .next t₂
      ∧ exec .trunc State.reset = .next t₃ ∧ exec .compare State.reset = .next t₄
      ∧ exec .generate State.reset = .next t₅ ∧ exec .verify State.reset = .next t₆ :=
  ⟨_, _, _, _, _, _, rfl, rfl, rfl, rfl, rfl, rfl⟩

/-- Both sides of the illegal codes, and the codes beside them. -/
theorem witness_IllegalCodesRaiseIllegalCommand :
    (0#8 = 0 ∨ 8 ≤ (0#8).toNat) ∧ (0x08#8 = 0 ∨ 8 ≤ (0x08#8).toNat) ∧ (0xFF#8 = 0 ∨ 8 ≤ (0xFF#8).toNat)
      ∧ ¬(0x07#8 = 0 ∨ 8 ≤ (0x07#8).toNat) ∧ ¬(0x01#8 = 0 ∨ 8 ≤ (0x01#8).toNat) := by decide

/-- For UnitCommandsReadOnlyTheirOperands and GenerateIsAFunctionOfItsOperands: two machines that agree on the operands of a command and differ elsewhere: a byte of KEY beyond KEY_LEN,
a byte of SECRET beyond SECRET_LEN, and VERDICT. -/
theorem witness_same_operands :
    SameDecodeOperands Block.reset { Block.reset with secret := Buf.ofBytes 256 [1#8] }
      ∧ SameHmacOperands Block.reset { Block.reset with key := Buf.ofBytes 160 [1#8] }
      ∧ SameTruncOperands Block.reset { Block.reset with ctrlAlg := 2, digest := Buf.ofBytes 64 [1#8] }
      ∧ SameGenerateOperands Block.reset { Block.reset with secret := Buf.ofBytes 256 [1#8], key := Buf.ofBytes 160 [1#8] } := by
  unfold SameDecodeOperands SameHmacOperands SameTruncOperands SameGenerateOperands SameDecodeOperands
  decide +kernel

theorem witness_compare_operands :
    (keyB rfcKey 1 0 6).candLen = Block.reset.candLen ∧ (keyB rfcKey 1 0 6).cand = Block.reset.cand
      ∧ (keyB rfcKey 1 0 6).codeLen = Block.reset.codeLen ∧ (keyB rfcKey 1 0 6).codeAscii = Block.reset.codeAscii :=
  ⟨rfl, rfl, rfl, rfl⟩

/-- The bytes beside the three ranges of the alphabet. -/
theorem witness_AlphabetValuesAreThePositions :
    ∀ c ∈ [0x40#8, 0x5B#8, 0x60#8, 0x7B#8, 0x31#8, 0x38#8], ¬(0x41 ≤ c.toNat ∧ c.toNat ≤ 0x5A)
      ∧ ¬(0x61 ≤ c.toNat ∧ c.toNat ≤ 0x7A) ∧ ¬(0x32 ≤ c.toNat ∧ c.toNat ≤ 0x37) := by decide

theorem witness_DecoderKeepsTheBitsInOrder :
    b32decode (asciiBytes "MZ") = some [0x66#8] ∧ b32decode (asciiBytes "my") = some [0x66#8] ∧ b32decode [] = some []
      ∧ (∀ v ∈ [0, 31], v < 32) := by decide +kernel

/-- The encoding of the row "fooba", and of the empty string. -/
theorem witness_DecodeInvertsEncode :
    (secretB "MZXW6YTB").secret.bytes.take (secretB "MZXW6YTB").secretLen.toNat = b32encode (asciiBytes "fooba")
      ∧ (secretB "MZXW6YTB").secretLen.toNat = (b32encode (asciiBytes "fooba")).length
      ∧ Block.reset.secret.bytes.take Block.reset.secretLen.toNat = b32encode []
      ∧ (b32encode (List.replicate 160 0#8)).length = 256 := by decide +kernel

/-- The clauses of DECODE: 257 characters, a bad last character, the full buffer. -/
theorem witness_DecodeCommandResult :
    (257#32).toNat > 256
      ∧ ((secretB "MZXW6YTB=").secretLen.toNat ≤ 256
          ∧ ∃ i < (secretB "MZXW6YTB=").secretLen.toNat, b32val ((secretB "MZXW6YTB=").secret.byte i) = none)
      ∧ ∀ i < 256, b32val ((Buf.ofBytes 256 (List.replicate 256 0x37#8)).byte i) ≠ none := by decide +kernel

theorem witness_SchedulesFollowTheirRecurrence : (List.replicate 16 (0#32)).length = 16 ∧ (List.replicate 16 (0#64)).length = 16 := by
  decide

theorem witness_HmacKeyIsHashedOrZeroFilled :
    (List.replicate 129 0#8).length > Alg.sha512.blockBytes ∧ (List.replicate 65 0#8).length > Alg.sha1.blockBytes
      ∧ ([] : List Byte).length + 64 ≤ Alg.sha256.blockBytes := by decide +kernel

/-- The clauses of HMAC: 161 key bytes, ALG = 3, and each algorithm with the longest key. -/
theorem witness_HmacCommandResult :
    (161#32).toNat > 160 ∧ (160#32).toNat ≤ 160
      ∧ (keyB (List.replicate 160 0#8) 0 3 6).keyLen.toNat ≤ 160 ∧ (keyB rfcKey 0 3 6).ctrlAlg = 3
      ∧ (keyB rfcKey 0 0 6).ctrlAlg = 0 ∧ (keyB rfcKey 0 1 6).ctrlAlg = 1 ∧ (keyB rfcKey 0 2 6).ctrlAlg = 2 := by
  decide +kernel

/-- The longest key that is not hashed, and the shortest that is, for each block size. -/
theorem witness_HmacConstruction :
    (hmacKey .sha1 (List.replicate 64 1#8) = List.replicate 64 1#8 ++ List.replicate (64 - 64) 0x00#8)
      ∧ ¬(List.replicate 64 1#8).length > 64 ∧ (List.replicate 65 1#8).length > 64
      ∧ ¬(List.replicate 128 1#8).length > 128 ∧ (List.replicate 129 1#8).length > 128 := by decide +kernel

theorem witness_DigestWordsReadAsHashWords :
    ({ Block.reset with digest := Buf.ofBytes 64 (sha1Bytes sha1Init) } : Block).digest = Buf.ofBytes 64 (sha1Bytes sha1Init)
      ∧ ({ Block.reset with digest := Buf.ofBytes 64 (sha2Bytes 4 sha256Init) } : Block).digest
          = Buf.ofBytes 64 (sha2Bytes 4 sha256Init)
      ∧ ({ Block.reset with digest := Buf.ofBytes 64 (sha2Bytes 8 sha512Init) } : Block).digest
          = Buf.ofBytes 64 (sha2Bytes 8 sha512Init)
      ∧ [sha512Init.a, sha512Init.b, sha512Init.c, sha512Init.d, sha512Init.e, sha512Init.f, sha512Init.g, sha512Init.h][7]?
          = some sha512Init.h := ⟨rfl, rfl, rfl, rfl⟩

theorem witness_TruncationFollowsTheByteOffset :
    (List.replicate 20 0xFF#8).length = 20 ∧ (List.replicate 32 0x00#8).length = 32 ∧ (List.replicate 64 0x0F#8).length = 64 := by
  decide

/-- The clauses of TRUNC: DIGITS 5 and 9, DIGEST_LEN 0, and each digest length at the ends of DIGITS and of the offset. -/
theorem witness_TruncCommandResult :
    ((5#4).toNat < 6 ∨ 8 < (5#4).toNat) ∧ ((9#4).toNat < 6 ∨ 8 < (9#4).toNat)
      ∧ 6 ≤ Block.reset.ctrlDigits.toNat ∧ Block.reset.ctrlDigits.toNat ≤ 8 ∧ Block.reset.digestLen = 0
      ∧ (digestB (List.replicate 20 0xFF#8) 6).digestLen = 20 ∧ (digestB (List.replicate 32 0xFF#8) 7).digestLen = 32
      ∧ (digestB (List.replicate 64 0xFF#8) 8).digestLen = 64
      ∧ ((digestB (List.replicate 20 0xFF#8) 6).digest.byte 19).toNat % 16 = 15 := by decide +kernel

theorem witness_CodeHasExactlyDigitsDigits :
    ∃ t u v : State, (exec .trunc (withB (digestB (List.replicate 20 0xFF#8) 6)) = .next t ∧ t.block.error = 0)
      ∧ (exec .generate (withB (keyB rfcKey 0 0 7)) = .next u ∧ u.block.error = 0)
      ∧ (exec .verify (withB (keyB rfcKey 0 0 8)) = .next v ∧ v.block.error = 0) := by
  refine ⟨_, _, _, ⟨rfl, ?_⟩, ⟨rfl, ?_⟩, ⟨rfl, ?_⟩⟩ <;> decide +kernel

theorem witness_CompareCommandResult :
    CandidateIsCode (codeB "287082" "287082" 6) ∧ CandidateIsCode (codeB "94287082" "94287082" 8)
      ∧ ¬CandidateIsCode (codeB "287082" "287083" 6) ∧ ¬CandidateIsCode Block.reset := by
  unfold CandidateIsCode; decide +kernel

/-- Blocks that describe no code and a code. -/
theorem witness_FixedScheduleComparesTheSame :
    Block.reset.CodeInv ∧ ({ codeB "872921" "872921" 6 with truncVal := 1357872921, codeBin := 872921 } : Block).CodeInv
      ∧ Block.reset.busy = false := by
  unfold Block.CodeInv; decide +kernel

/-- Operands that fail a check (rows G7 and G9). -/
theorem witness_GenerateCommandResult_error :
    firstFailing (generateChecklist { secretB "GEZDGNBVGY3TQOJ1G" with ctrlAlg := 3, ctrlDigits := 10 }) = 1
      ∧ firstFailing (generateChecklist (keyB (List.replicate 161 0#8) 0 3 10)) = 1
      ∧ firstFailing (generateChecklist (keyB [] 0 0 6)) = 0 := by decide +kernel

/-- Operands that pass every check: a raw empty key (row G17), and the shortest secret with each algorithm. -/
theorem witness_GenerateCommandResult :
    GenerateReady (keyB [] 0 0 6) [] .sha1
      ∧ GenerateReady { secretB "GEZDGNBVGY3TQOJQ" with ctrlAlg := 1, ctrlDigits := 7 } (asciiBytes "1234567890") .sha256
      ∧ GenerateReady { secretB "gezdgnbvgy3tqojq" with ctrlAlg := 2, ctrlDigits := 8 } (asciiBytes "1234567890") .sha512 := by
  unfold GenerateReady; refine ⟨?_, ?_, ?_⟩ <;> decide +kernel

theorem witness_GenerateEqualsItsUnitsInTurn :
    ∃ t u : State, (commandAlone .generate (withB (secretB "GEZDGNBVGY3TQOJQ")) = .next t ∧ t.block.error = 0)
      ∧ (commandAlone .generate (withB (keyB rfcKey 0 0 6)) = .next u ∧ u.block.error = 0)
      ∧ (secretB "GEZDGNBVGY3TQOJQ").ctrlKsrc = true ∧ (keyB rfcKey 0 0 6).ctrlKsrc = false := by
  refine ⟨_, _, ⟨rfl, ?_⟩, ⟨rfl, ?_⟩, rfl, rfl⟩ <;> decide +kernel

/-- The three cases of VERIFY: an error, a match, and none. -/
theorem witness_VerifyIsGenerateThenCompare :
    (after .generate Block.reset fun b => decide (b.error ≠ 0)) = some true
      ∧ (after .generate (withCand "755224" (keyB rfcKey 0 0 6)) fun b => (b.error, codeMatches b)) = some (0, true)
      ∧ (after .generate (withCand "755225" (keyB rfcKey 0 0 6)) fun b => (b.error, codeMatches b)) = some (0, false) := by
  decide +kernel

/-- A candidate of another length than DIGITS, on operands that pass every check. -/
theorem witness_VerifyAcceptsExactlyTheGeneratedCode :
    GenerateReady (withCand "287082" (keyB [] 1 0 8)) [] .sha1
      ∧ (withCand "287082" (keyB [] 1 0 8)).candLen.toNat ≠ (withCand "287082" (keyB [] 1 0 8)).ctrlDigits.toNat := by
  unfold GenerateReady; decide +kernel

theorem witness_ZeroizeClearsEveryDataRegister :
    6 ≤ (keyB rfcKey 1 0 6).ctrlDigits.toNat ∧ (keyB rfcKey 1 0 8).ctrlDigits.toNat ≤ 8 := by decide +kernel

/-- A state that meets the invariant, and its next state. -/
theorem witness_EveryStepKeepsTheInvariant : ∃ s t : State, s.Inv ∧ step s = .next t := by
  refine ⟨State.reset, _, ⟨⟨⟨.inl rfl, fun i _ => Buf.byte_zero 64 i⟩, .inl (by decide), ?_⟩, fun h => by cases h⟩, rfl⟩
  unfold Block.OutcomeInv; decide

/-- A step in which the digest and the code change. -/
theorem witness_ResultsStayUntilRewritten :
    ∃ s t : State, step s = .next t ∧ ¬(t.resetAsserted = true ∧ t.block = Block.reset)
      ∧ ¬SameDigest s.block t.block ∧ ¬SameCode s.block t.block := by
  refine ⟨withB (issue 0x05#8 (keyB rfcKey 0 0 6)), _, rfl, fun h => (by cases h.1), ?_, ?_⟩ <;>
    first
      | (unfold SameDigest; decide +kernel)
      | (unfold SameCode; decide +kernel)

theorem witness_IssuedCommandCompletes :
    (withB (busyB .decode)).block.busy = true ∧ (withB (busyB .decode)).resetAsserted = false := ⟨rfl, rfl⟩

theorem witness_WaitEndsAfterTheCompletion :
    ({ withB (busyB .decode) with program := [.wait] } : State).program = .wait :: []
      ∧ (withB (busyB .decode)).schedule = List.replicate 0 .host
      ∧ ({ withB (busyB .decode) with schedule := [.host, .host, .engine, .host] } : State).schedule
          = List.replicate 2 .host ++ .engine :: .host :: []
      ∧ ({ State.reset with resetAsserted := true, program := [.wait] } : State).schedule = []
      ∧ ({ State.reset with resetAsserted := true, program := [.wait], schedule := [.host] } : State).schedule
          = .host :: [] := ⟨rfl, rfl, rfl, rfl, rfl⟩

/-- An issue and a ZEROIZE that clear a VERDICT. For ResultsStayUntilRewritten. -/
theorem witness_verdict_cleared :
    (∃ s t : State, step s = .next t ∧ s.block.verdict = 1 ∧ t.block.verdict = 0 ∧ s.block.busy = false)
      ∧ ∃ s t : State, step s = .next t ∧ s.block.verdict = 1 ∧ t.block.verdict = 0 ∧ s.block.busy = true := by
  refine ⟨⟨hostAtS { Block.reset with verdict := 1 } (writeStmt 0x00C 5#32) [], _, step_of_hostAt ⟨rfl, rfl, .inl rfl⟩, rfl, ?_, rfl⟩,
    ⟨withB { busyB .zeroize with verdict := 1 }, _, rfl, rfl, rfl, rfl⟩⟩
  simp only [writeStmt, performStmt]
  rw [writeEffect_word (by unfold WordOffset; decide) rfl]
  decide

/-- The largest counter, and registers that hold it. -/
theorem witness_PresentedCounterIsPacked :
    2 ^ 64 - 1 < 2 ^ 64
      ∧ ({ State.reset with program := counterStmts (2 ^ 64 - 1) } : State).program = counterStmts (2 ^ 64 - 1)
      ∧ State.reset.block.busy = false ∧ State.reset.schedule = []
      ∧ (keyB [] (2 ^ 64 - 1) 0 6).counterHi = 0xFFFFFFFF#32 ∧ (keyB [] (2 ^ 64 - 1) 0 6).counterLo = 0xFFFFFFFF#32 :=
  ⟨by decide, rfl, rfl, rfl, by decide, by decide⟩

end Sys2Proof.Tests
end

section
/-! PROOFS. The invariant of the machine: what each shared write does to the three parts of the block's invariant,
and that every step keeps it. -/

namespace Sys2Proof.Machine

/-! ## Lengths of the hashes (R181) -/

@[simp] theorem length_sha1Bytes (h : Sha1State) : (sha1Bytes h).length = 20 := by simp [sha1Bytes]

@[simp] theorem length_sha2Bytes {w : Nat} (n : Nat) (h : Sha2State w) : (sha2Bytes n h).length = 8 * n := by
  simp [sha2Bytes]; omega

@[simp] theorem length_hash (a : Alg) (m : List Byte) : (a.hash m).length = a.digestBytes := by
  cases a with
  | sha1 => exact length_sha1Bytes _
  | sha256 => exact length_sha2Bytes 4 _
  | sha512 => exact length_sha2Bytes 8 _

@[simp] theorem length_hmac (a : Alg) (key text : List Byte) : (hmac a key text).length = a.digestBytes :=
  length_hash a _

/-! ## The digest part -/

theorem Block.DigestInv.of_same {b c : Block} (hb : b.DigestInv) (h : SameDigest b c) : c.DigestInv := by
  obtain ⟨hlen, hbytes⟩ := h
  unfold Block.DigestInv at hb ⊢
  rwa [← hlen, ← hbytes]

theorem digestInv_clearData (b : Block) : (clearData b).DigestInv := ⟨.inl rfl, fun i _ => Buf.byte_zero 64 i⟩

/-- A digest of one of the three algorithms leaves DIGEST as the invariant asks, whatever stood there. -/
theorem digestInv_writeDigest {d : List Byte} {a : Alg} (hd : d.length = a.digestBytes) (b : Block) :
    (writeDigest d b).DigestInv := by
  have hlen : (BitVec.ofNat 32 d.length).toNat = d.length := by rw [hd]; cases a <;> rfl
  constructor
  · rw [writeDigest_digestLen, hd]
    cases a <;> decide
  · intro i hi
    rw [writeDigest_digestLen, hlen] at hi
    rw [writeDigest_digest, Buf.byte_ofBytes, List.getD_eq_default _ _ hi]
    exact ite_self _

theorem digestInv_generateResults (key : List Byte) (a : Alg) (b : Block) : (generateResults key a b).DigestInv :=
  (digestInv_writeDigest (length_hmac a key (counterMessage b)) (storeKey key b)).of_same ⟨rfl, rfl⟩

/-- A command leaves DIGEST alone, writes one algorithm's digest, or clears it. -/
theorem bodyOf_keeps_digestInv {i : Instr} {b c : Block} (h : bodyOf i b = .ok c) (hb : b.DigestInv) :
    c.DigestInv := by
  rcases bodyOf_ok h with ⟨-, k, -, -, rfl⟩ | ⟨-, a, -, -, rfl⟩ | ⟨-, -, -, rfl⟩ | ⟨-, rfl⟩
    | ⟨-, k, a, -, -, -, rfl⟩ | ⟨-, k, a, -, -, -, rfl⟩ | ⟨-, rfl⟩
  · exact hb.of_same ⟨rfl, rfl⟩
  · exact digestInv_writeDigest (length_hmac a _ _) b
  · exact hb.of_same ⟨rfl, rfl⟩
  · exact hb.of_same ⟨rfl, rfl⟩
  · exact digestInv_generateResults k a b
  · exact (digestInv_generateResults k a b).of_same ⟨rfl, rfl⟩
  · exact digestInv_clearData b

/-! ## The code part -/

theorem Block.CodeInv.of_same {b c : Block} (hb : b.CodeInv) (h : SameCode b c) : c.CodeInv := by
  obtain ⟨hoff, hval, hbin, hlen, hascii⟩ := h
  unfold Block.CodeInv at hb ⊢
  rwa [← hoff, ← hval, ← hbin, ← hlen, ← hascii]

theorem codeInv_clearData (b : Block) : (clearData b).CodeInv := .inl ⟨rfl, rfl, rfl, rfl, rfl⟩

/-- The value is masked to 31 bits (R223), so TRUNC_VAL holds all of it. -/
theorem truncValue_lt (d : List Byte) : truncValue d < 2 ^ 31 := Nat.and_lt_two_pow _ (by decide)

/-- A code of 6, 7 or 8 digits fits CODE_BIN (R225). -/
theorem foldCode_lt (v : Nat) {digits : Nat} (h : digits ≤ 8) : foldCode v digits < 2 ^ 32 :=
  calc v % 10 ^ digits < 10 ^ digits := Nat.mod_lt _ (by positivity)
    _ ≤ 10 ^ 8 := Nat.pow_le_pow_right (by decide) h
    _ < 2 ^ 32 := by decide

theorem legalCodeLen_of_legalDigits {d : BitVec 4} (h : legalDigits d = true) :
    legalCodeLen (BitVec.ofNat 32 d.toNat) = true := by
  revert d; decide

theorem toNat_le_eight_of_legalDigits {d : BitVec 4} (h : legalDigits d = true) : d.toNat ≤ 8 := by
  revert d; decide

/-- The truncation stage writes the registers of one code (R226). -/
theorem codeInv_writeCode {n : BitVec 4} (hn : legalDigits n = true) (d : List Byte) (b : Block) :
    (writeCode d n.toNat b).CodeInv := by
  have hdigits := toNat_le_eight_of_legalDigits hn
  have hlen : (BitVec.ofNat 32 n.toNat).toNat = n.toNat := by
    rw [BitVec.toNat_ofNat, Nat.mod_eq_of_lt (by omega)]
  have hval : (BitVec.ofNat 31 (truncValue d)).toNat = truncValue d := by
    rw [BitVec.toNat_ofNat, Nat.mod_eq_of_lt (truncValue_lt d)]
  have hbin : (BitVec.ofNat 32 (foldCode (truncValue d) n.toNat)).toNat = foldCode (truncValue d) n.toNat := by
    rw [BitVec.toNat_ofNat, Nat.mod_eq_of_lt (foldCode_lt _ hdigits)]
  refine .inr ⟨legalCodeLen_of_legalDigits hn, ?_, ?_⟩
  · rw [writeCode_codeBin, writeCode_codeLen, writeCode_truncVal, hbin, hlen, hval]
  · rw [writeCode_codeBin, writeCode_codeLen, writeCode_codeAscii, hbin, hlen]

theorem codeInv_generateResults {b : Block} (hd : legalDigits b.ctrlDigits = true) (key : List Byte) (a : Alg) :
    (generateResults key a b).CodeInv := codeInv_writeCode hd _ _

/-- A command leaves the code registers alone, writes one code, or clears them. -/
theorem bodyOf_keeps_codeInv {i : Instr} {b c : Block} (h : bodyOf i b = .ok c) (hb : b.CodeInv) : c.CodeInv := by
  rcases bodyOf_ok h with ⟨-, k, -, -, rfl⟩ | ⟨-, a, -, -, rfl⟩ | ⟨-, hd, -, rfl⟩ | ⟨-, rfl⟩
    | ⟨-, k, a, -, hd, -, rfl⟩ | ⟨-, k, a, -, hd, -, rfl⟩ | ⟨-, rfl⟩
  · exact hb.of_same ⟨rfl, rfl, rfl, rfl, rfl⟩
  · exact hb.of_same ⟨rfl, rfl, rfl, rfl, rfl⟩
  · exact codeInv_writeCode hd _ b
  · exact hb.of_same ⟨rfl, rfl, rfl, rfl, rfl⟩
  · exact codeInv_generateResults hd k a
  · exact (codeInv_generateResults hd k a).of_same ⟨rfl, rfl, rfl, rfl, rfl⟩
  · exact codeInv_clearData b

/-! ## The outcome part -/

theorem outcomeInv_issue (code : BitVec 8) (b : Block) : (issue code b).OutcomeInv := by
  unfold Block.OutcomeInv
  simp

theorem outcomeInv_clearStatus (v : Word) {b : Block} (hb : b.OutcomeInv) : (clearStatus v b).OutcomeInv := by
  obtain ⟨hbusy, herr, hrest⟩ := hb
  refine ⟨fun h => ?_, fun h => ?_, hrest⟩
  · obtain ⟨hd, he, hout⟩ := hbusy h
    exact ⟨by simp [hd], by simp [he], hout⟩
  · exact herr (Bool.and_elim_left h)

theorem codeMatches_legalCodeLen {b : Block} (h : codeMatches b = true) : legalCodeLen b.codeLen = true :=
  Bool.and_elim_left (Bool.and_elim_left h)

/-- The comparison stage says VALID only with a code (R240, R242). -/
theorem writeVerdict_outcome (b : Block) :
    (writeVerdict b).verdict = 2
      ∨ ((writeVerdict b).verdict = 1 ∧ legalCodeLen (writeVerdict b).codeLen = true) := by
  cases h : codeMatches b with
  | false => exact .inl (by simp [h])
  | true => exact .inr ⟨by simp [h], codeMatches_legalCodeLen h⟩

/-- A body keeps VERDICT or clears it, or it ends in the comparison. -/
theorem bodyOf_verdict {i : Instr} {b c : Block} (h : bodyOf i b = .ok c) (hb : b.verdict = 0) :
    c.verdict = 0 ∨ c.verdict = 2 ∨ (c.verdict = 1 ∧ legalCodeLen c.codeLen = true) := by
  rcases bodyOf_ok h with ⟨-, k, -, -, rfl⟩ | ⟨-, a, -, -, rfl⟩ | ⟨-, -, -, rfl⟩ | ⟨-, rfl⟩
    | ⟨-, k, a, -, -, -, rfl⟩ | ⟨-, k, a, -, -, -, rfl⟩ | ⟨-, rfl⟩
  · exact .inl hb
  · exact .inl hb
  · exact .inl hb
  · exact .inr (writeVerdict_outcome b)
  · exact .inl (by simp [generateResults, hb])
  · exact .inr (writeVerdict_outcome _)
  · exact .inl rfl

theorem outcomeInv_complete {c : Block}
    (h : c.verdict = 0 ∨ c.verdict = 2 ∨ (c.verdict = 1 ∧ legalCodeLen c.codeLen = true)) :
    (complete c).OutcomeInv := by
  unfold Block.OutcomeInv
  rcases h with h | h | ⟨h, hlen⟩
  · simp [h]
  · simp [h]
  · simp [h, hlen]

theorem generateKey_error_ne_expired {b : Block} {e : CommandError} (h : generateKey b = .error e) :
    e ≠ .expired := by
  rintro rfl
  rcases generateKey_cases b with ⟨-, -, h'⟩ | ⟨-, -, -, h'⟩ | ⟨k, -, -, -, h'⟩
    | ⟨-, -, h'⟩ | ⟨-, -, h'⟩ <;> simp [h'] at h

theorem generateBody_error_ne_expired {b : Block} {e : CommandError} (h : generateBody b = .error e) :
    e ≠ .expired := by
  rintro rfl
  rcases generateBody_cases b with ⟨e, hk, h'⟩ | ⟨k, -, -, h'⟩ | ⟨k, -, -, -, h'⟩
    | ⟨k, a, -, -, -, h'⟩ <;> simp [h'] at h
  exact generateKey_error_ne_expired hk h

/-- The block never writes the code that is reserved for host software (R290). -/
theorem bodyOf_error_ne_expired {i : Instr} {b : Block} {e : CommandError} (h : bodyOf i b = .error e) :
    e ≠ .expired := by
  cases i with
  | decode =>
    rcases decodeBody_cases b with ⟨-, h'⟩ | ⟨-, -, h'⟩ | ⟨k, -, -, h'⟩ <;>
      rw [bodyOf, h'] at h <;> cases h <;> simp
  | hmac =>
    rcases hmacBody_cases b with ⟨-, h'⟩ | ⟨-, -, h'⟩ | ⟨a, -, -, h'⟩ <;>
      rw [bodyOf, h'] at h <;> cases h <;> simp
  | trunc =>
    rcases truncBody_cases b with ⟨-, h'⟩ | ⟨-, -, h'⟩ | ⟨-, -, h'⟩ <;>
      rw [bodyOf, h'] at h <;> cases h <;> simp
  | generate => exact generateBody_error_ne_expired h
  | verify =>
    rcases verifyBody_cases b with ⟨e, hg, h'⟩ | ⟨c, -, h'⟩ <;> rw [bodyOf, h'] at h <;> cases h
    exact generateBody_error_ne_expired hg
  | compare => cases h
  | zeroize => cases h
  | illegal00 => cases h; simp
  | illegal08 _ => cases h; simp
  | illegal10 _ => cases h; simp
  | illegal20 _ => cases h; simp
  | illegal40 _ => cases h; simp
  | illegal80 _ => cases h; simp

theorem errorCode_ne_five {e : CommandError} (h : e ≠ .expired) : errorCode e ≠ 5#4 :=
  fun h' => h (errorCode_injective (f := .expired) h')

theorem outcomeInv_raise {e : CommandError} (he : e ≠ .expired) {b : Block} (hb : b.verdict = 0) :
    (raise e b).OutcomeInv := by
  unfold Block.OutcomeInv
  simp [hb, errorCode_lt, errorCode_ne_five he]

/-! ## The whole block -/

theorem inv_reset : Block.reset.Inv :=
  ⟨⟨.inl rfl, fun i _ => Buf.byte_zero 64 i⟩, .inl ⟨rfl, rfl, rfl, rfl, rfl⟩,
    by unfold Block.OutcomeInv; decide⟩

/-- No register write stores into the digest or the code. -/
theorem writeReg_sameResults (v : Word) (b : Block) (r : Reg) :
    SameDigest b (writeReg v b r) ∧ SameCode b (writeReg v b r) := by
  cases r <;> exact ⟨⟨rfl, rfl⟩, rfl, rfl, rfl, rfl, rfl⟩

/-- The host cannot write the digest or the code (R82, R332). -/
theorem busWrite_sameResults (off : Nat) (v : Word) (b : Block) :
    SameDigest b (busWrite off v b) ∧ SameCode b (busWrite off v b) := by
  cases hb : b.busy with
  | false =>
    rw [busWrite_idle hb]
    exact writeReg_sameResults v b _
  | true =>
    rw [busWrite_busy hb]
    split <;> exact ⟨⟨rfl, rfl⟩, rfl, rfl, rfl, rfl, rfl⟩

/-- Only CMD and STATUS touch the outcome fields. -/
theorem outcomeInv_writeReg (v : Word) {b : Block} (hb : b.OutcomeInv) (r : Reg) :
    (writeReg v b r).OutcomeInv := by
  cases r
  case cmd => exact outcomeInv_issue _ b
  case status => exact outcomeInv_clearStatus v hb
  all_goals exact hb

theorem outcomeInv_busWrite (off : Nat) (v : Word) {b : Block} (hb : b.OutcomeInv) :
    (busWrite off v b).OutcomeInv := by
  cases hbusy : b.busy with
  | false =>
    rw [busWrite_idle hbusy]
    exact outcomeInv_writeReg v hb _
  | true =>
    rw [busWrite_busy hbusy]
    split
    · exact outcomeInv_clearStatus v hb
    · exact hb

theorem busWrite_keeps_inv (off : Nat) (v : Word) {b : Block} (hb : b.Inv) : (busWrite off v b).Inv := by
  obtain ⟨hdigest, hcode, hout⟩ := hb
  obtain ⟨sameDigest, sameCode⟩ := busWrite_sameResults off v b
  exact ⟨hdigest.of_same sameDigest, hcode.of_same sameCode, outcomeInv_busWrite off v hout⟩

/-- The completion of a command in progress keeps the block's invariant; that it is in progress gives VERDICT = 0. -/
theorem exec_keeps_inv {i : Instr} {s t : State} (h : exec i s = .next t) (hbusy : s.block.busy = true)
    (hs : s.block.Inv) : t.block.Inv := by
  obtain ⟨hdigest, hcode, hout⟩ := hs
  obtain ⟨-, -, -, hverdict⟩ := hout.1 hbusy
  rcases exec_cases h with ⟨c, hc, rfl⟩ | ⟨e, he, rfl⟩
  · have hcDigest : c.DigestInv := bodyOf_keeps_digestInv hc hdigest
    have hcCode : c.CodeInv := bodyOf_keeps_codeInv hc hcode
    exact ⟨hcDigest, hcCode, outcomeInv_complete (bodyOf_verdict hc hverdict)⟩
  · exact ⟨hdigest, hcode, outcomeInv_raise (bodyOf_error_ne_expired he) hverdict⟩

/-- The reset input is outside the block, so no command moves it. -/
theorem exec_resetAsserted {i : Instr} {s t : State} (h : exec i s = .next t) :
    t.resetAsserted = s.resetAsserted := by
  rw [exec_next h]; rfl

/-! ## The whole machine -/

theorem hostTurn_keeps_inv {s : State} (hs : s.Inv) : (hostTurn s).Inv := by
  obtain ⟨hblock, hreset⟩ := hs
  obtain ⟨hra, -, hsame | ⟨addr, v, rest, off, -, -, hreleased, -, hwrite⟩⟩ := hostTurn_cases s
  · unfold State.Inv
    rw [hsame, hra]
    exact ⟨hblock, hreset⟩
  · refine ⟨hwrite ▸ busWrite_keeps_inv off v hblock, fun h => ?_⟩
    rw [hra, hreleased] at h
    cases h

theorem resetTurn_keeps_inv (a : Bool) {s : State} (hs : s.Inv) : (resetTurn a s).Inv := by
  cases a with
  | true => exact ⟨inv_reset, fun _ => rfl⟩
  | false => exact ⟨hs.1, fun h => by cases h⟩

/-- Settles O51: each of the four things a step can be keeps the invariant. -/
theorem everyStepKeepsTheInvariant : Obligations.EveryStepKeepsTheInvariant := by
  intro s t hs hstep
  obtain ⟨turns, h | ⟨hbusy, hreleased, h⟩ | h | ⟨a, h⟩⟩ := step_cases s <;> rw [h] at hstep
  · cases hstep
    exact hostTurn_keeps_inv hs
  · refine ⟨exec_keeps_inv hstep hbusy hs.1, fun ht => ?_⟩
    rw [exec_resetAsserted hstep, withSchedule_resetAsserted, hreleased] at ht
    cases ht
  · cases hstep
    exact hs
  · cases hstep
    exact resetTurn_keeps_inv a hs

end Sys2Proof.Machine
end

section
/-! PROOFS. What the bus reads: fields of a register word, the words of a buffer as big-endian integers, and DIGEST as
the words of a hash. -/

namespace Sys2Proof.Machine

/-! ## CTRL and STATUS as words (R34, R36) -/

theorem toNat_bit (x : Bool) : (bit x).toNat = x.toNat := BitVec.toNat_ofBool x

/-- Appending a field below a word scales the word by the field's size. -/
theorem toNat_append_eq_add {m n : Nat} (x : BitVec m) (y : BitVec n) : (x ++ y).toNat = x.toNat * 2 ^ n + y.toNat := by
  rw [BitVec.toNat_append, ← Nat.shiftLeft_add_eq_or_of_lt y.isLt, Nat.shiftLeft_eq]

theorem toNat_ctrlWord (b : Block) :
    (ctrlWord b).toNat = b.ctrlAlg.toNat + 16 * b.ctrlDigits.toNat + 256 * b.ctrlKsrc.toNat + 512 * b.ctrlIe.toNat := by
  simp only [ctrlWord, toNat_append_eq_add, toNat_bit, BitVec.toNat_ofNat]
  omega

theorem toNat_statusWord (b : Block) :
    (statusWord b).toNat = b.busy.toNat + 2 * b.done.toNat + 4 * b.err.toNat + 8 * b.wbusy.toNat := by
  simp only [statusWord, toNat_append_eq_add, toNat_bit, BitVec.toNat_ofNat]
  omega

theorem getLsbD_ctrlWord_ie (b : Block) : (ctrlWord b).getLsbD 9 = b.ctrlIe := by
  simp only [ctrlWord, bit, BitVec.getLsbD_append]
  simp

theorem getLsbD_statusWord_done (b : Block) : (statusWord b).getLsbD 1 = b.done := by
  simp only [statusWord, bit, BitVec.getLsbD_append]
  simp

/-- Settles O16: the two bits of the bus reads are the two fields that `irq` joins. -/
theorem irqIsEnableAndDone : Obligations.IrqIsEnableAndDone := by
  intro b
  change _ = ((ctrlWord b).getLsbD 9 && (statusWord b).getLsbD 1)
  rw [getLsbD_ctrlWord_ie, getLsbD_statusWord_done, irq]

/-! ## Buffer words (R48) -/

/-- The four bytes that a buffer word takes. -/
theorem slice_bytes_word {n : Nat} (b : Buf n) {k : Nat} (h : 4 * k + 4 ≤ n) :
    slice b.bytes (4 * k) (4 * k + 4) =
      [b.byte (4 * k), b.byte (4 * k + 1), b.byte (4 * k + 2), b.byte (4 * k + 3)] := by
  apply List.ext_getElem
  · simp; omega
  · intro i _ hi
    simp only [slice, List.getElem_take, List.getElem_drop]
    rw [← Buf.byte_eq_getElem b (4 * k + i) (by simp at hi; omega)]
    simp only [List.length_cons, List.length_nil] at hi
    interval_cases i <;> rfl

/-- A buffer word is the big-endian integer of its four bytes. -/
theorem Buf.toNat_word {n : Nat} (b : Buf n) {k : Nat} (h : 4 * k + 4 ≤ n) :
    (b.word k).toNat = intBe (slice b.bytes (4 * k) (4 * k + 4)) := by
  rw [slice_bytes_word b h]
  simp only [Buf.word, toNat_append_eq_add, intBe, List.foldl_cons, List.foldl_nil]
  omega

/-! ## Named registers on the bus (R32) -/

/-- A bus read at a named register's offset reads that register. -/
theorem busRead_of_regOffset {r : Reg} {off : Nat} (h : regOffset r = some off) (b : Block) :
    busRead b off = readReg b r := by rw [busRead, regAt_of_regOffset h]

theorem busRead_codeAscii (b : Block) {k : Nat} (h : k < 2) : busRead b (0x048 + 4 * k) = b.codeAscii.word k :=
  busRead_of_regOffset (r := .codeAscii k) (if_pos h) b

theorem busRead_cand (b : Block) {k : Nat} (h : k < 2) : busRead b (0x050 + 4 * k) = b.cand.word k :=
  busRead_of_regOffset (r := .cand k) (if_pos h) b

theorem busRead_digest (b : Block) {k : Nat} (h : k < 16) : busRead b (0x080 + 4 * k) = b.digest.word k :=
  busRead_of_regOffset (r := .digest k) (if_pos h) b

theorem busRead_secret (b : Block) {k : Nat} (h : k < 64) : busRead b (0x100 + 4 * k) = b.secret.word k :=
  busRead_of_regOffset (r := .secret k) (if_pos h) b

theorem busRead_key (b : Block) {k : Nat} (h : k < 40) : busRead b (0x200 + 4 * k) = b.key.word k :=
  busRead_of_regOffset (r := .key k) (if_pos h) b

theorem regAt_reserved {off : Nat} (h : ReservedOffset off) : regAt off = .reserved := by
  unfold ReservedOffset at h
  unfold regAt
  rcases h with h | h | h
  · repeat (rw [if_neg (by omega)])
    rw [if_pos h.2]
  · repeat (rw [if_neg (by omega)])
    rw [if_pos h.2]
  · repeat (rw [if_neg (by omega)])

theorem busRead_reserved (b : Block) {off : Nat} (h : ReservedOffset off) : busRead b off = 0#32 := by
  rw [busRead, regAt_reserved h]; rfl

/-- A word offset that is not a register's own offset does not read that register. -/
theorem regAt_ne_of_ne {r : Reg} {o off : Nat} (hr : regOffset r = some o) (hw : WordOffset off) (h : off ≠ o) :
    regAt off ≠ r := by
  rintro rfl
  rcases regAt_cases hw with hc | hc
  · rw [hr] at hc
    exact h (Option.some.inj hc).symm
  · rw [hc] at hr
    cases hr

/-- An issue changes no register that reads, but STATUS, ERROR and VERDICT (R46). -/
theorem readReg_issue (c : BitVec 8) (b : Block) {r : Reg} (hs : r ≠ .status) (he : r ≠ .error)
    (hv : r ≠ .verdict) :
    readReg (issue c b) r = readReg b r := by
  cases r
  case status => exact absurd rfl hs
  case error => exact absurd rfl he
  case verdict => exact absurd rfl hv
  all_goals rfl

theorem busRead_issue (c : BitVec 8) (b : Block) {off : Nat} (hw : WordOffset off) (hs : off ≠ 0x010)
    (he : off ≠ 0x014) (hv : off ≠ 0x040) : busRead (issue c b) off = busRead b off :=
  readReg_issue c b (regAt_ne_of_ne rfl hw hs) (regAt_ne_of_ne rfl hw he) (regAt_ne_of_ne rfl hw hv)

/-- A read step of the host takes its statement off the program and answers; the block stays. -/
theorem step_read {s : State} {off : Nat} {rest : List HostStmt} {turns : List Turn} (hw : WordOffset off)
    (h : s.HostAt (readStmt off) rest turns) :
    step s = .next { s with
      program := rest
      schedule := turns
      responses := .readData (busRead s.block off) :: s.responses } := by
  have hr : (s.withSchedule turns).resetAsserted = false := h.1
  rw [step_of_hostAt h]
  simp only [readStmt, performStmt, readResponse_word hw hr]
  rfl

/-- Settles O7: offset by offset, each read through the register that stands there. -/
theorem busReadReturnsTheStoredValue : Obligations.BusReadReturnsTheStoredValue := by
  refine ⟨fun b => ⟨rfl, rfl, rfl, toNat_ctrlWord b, rfl, toNat_statusWord b,
    BitVec.toNat_setWidth_of_le (by decide), rfl, rfl, rfl, rfl, rfl, BitVec.toNat_setWidth_of_le (by decide),
    BitVec.toNat_setWidth_of_le (by decide), rfl, rfl, rfl, BitVec.toNat_setWidth_of_le (by decide),
    ?codeAscii, ?cand, ?digest, ?secret, ?key, fun off _ hres => busRead_reserved b hres,
    fun c off hw hs he hv => busRead_issue c b hw hs he hv⟩, fun s off rest turns hw h => step_read hw h⟩
  case codeAscii => intro k hk; rw [busRead_codeAscii b hk, Buf.toNat_word _ (by omega)]
  case cand => intro k hk; rw [busRead_cand b hk, Buf.toNat_word _ (by omega)]
  case digest => intro k hk; rw [busRead_digest b hk, Buf.toNat_word _ (by omega)]
  case secret => intro k hk; rw [busRead_secret b hk, Buf.toNat_word _ (by omega)]
  case key => intro k hk; rw [busRead_key b hk, Buf.toNat_word _ (by omega)]

/-! ## Hash words in DIGEST (R86c, R48) -/

/-- A field of a field is a field of the whole. -/
theorem extractLsb'_of_extractLsb' {w : Nat} (v : BitVec w) (lo n start : Nat) {len : Nat} (h : start + len ≤ n) :
    (v.extractLsb' lo n).extractLsb' start len = v.extractLsb' (lo + start) len := by
  apply BitVec.eq_of_getLsbD_eq
  intro i hi
  have hn : start + i < n := by omega
  simp [hi, hn, Nat.add_assoc]

/-- The four big-endian bytes of a word are the bytes of its bus word. -/
theorem be_four_toNat (v : Word) : be 4 v.toNat = wordBytes v := rfl

/-- The eight big-endian bytes of a double word are those of its two halves, the high one first. -/
theorem be_eight_toNat (v : BitVec 64) :
    be 8 v.toNat = wordBytes (v.extractLsb' 32 32) ++ wordBytes (v.extractLsb' 0 32) := by
  have bytes : be 8 v.toNat = [v.extractLsb' 56 8, v.extractLsb' 48 8, v.extractLsb' 40 8, v.extractLsb' 32 8,
      v.extractLsb' 24 8, v.extractLsb' 16 8, v.extractLsb' 8 8, v.extractLsb' 0 8] := rfl
  rw [bytes]
  simp [wordBytes, extractLsb'_of_extractLsb']

/-- Byte `j` of word `k` in a string of words; past the end, zero. -/
theorem getD_flatMap_wordBytes (ws : List Word) (k : Nat) {j : Nat} (hj : j < 4) :
    (ws.flatMap wordBytes).getD (4 * k + j) 0#8 = (wordBytes (ws.getD k 0)).getD j 0#8 := by
  induction ws generalizing k with
  | nil => rw [List.flatMap_nil, List.getD_nil, List.getD_nil]; interval_cases j <;> rfl
  | cons w ws ih =>
    rw [List.flatMap_cons]
    cases k with
    | zero => rw [List.getD_append _ _ _ _ (by simpa [wordBytes] using hj)]; simp
    | succ k =>
      rw [List.getD_append_right _ _ _ _ (by simp [wordBytes]; omega)]
      have : 4 * (k + 1) + j - (wordBytes w).length = 4 * k + j := by simp [wordBytes]; omega
      rw [this, ih, List.getD_cons_succ]

/-- A buffer that holds a string of words reads back word by word. -/
theorem Buf.word_ofBytes_flatMap {n : Nat} (ws : List Word) {k : Nat} (h : 4 * k + 4 ≤ n) :
    (Buf.ofBytes n (ws.flatMap wordBytes)).word k = ws.getD k 0 := by
  have hbyte : ∀ j < 4,
      (Buf.ofBytes n (ws.flatMap wordBytes)).byte (4 * k + j) = (wordBytes (ws.getD k 0)).getD j 0#8 :=
    fun j hj => by rw [Buf.byte_ofBytes, if_pos (by omega), getD_flatMap_wordBytes ws k hj]
  have h0 := hbyte 0 (by decide)
  rw [Nat.add_zero] at h0
  rw [Buf.word, h0, hbyte 1 (by decide), hbyte 2 (by decide), hbyte 3 (by decide)]
  exact append_wordBytes _

theorem sha1Bytes_eq_flatMap (h : Sha1State) : sha1Bytes h = [h.a, h.b, h.c, h.d, h.e].flatMap wordBytes := by
  simp [sha1Bytes, be_four_toNat]

theorem sha256Bytes_eq_flatMap (h : Sha2State 32) :
    sha2Bytes 4 h = [h.a, h.b, h.c, h.d, h.e, h.f, h.g, h.h].flatMap wordBytes := by
  simp [sha2Bytes, be_four_toNat]

/-- The two bus words of a 64-bit word, the high half first. -/
def halves (w : BitVec 64) : List Word := [w.extractLsb' 32 32, w.extractLsb' 0 32]

theorem sha512Bytes_eq_flatMap (h : Sha2State 64) :
    sha2Bytes 8 h = ([h.a, h.b, h.c, h.d, h.e, h.f, h.g, h.h].flatMap halves).flatMap wordBytes := by
  simp [sha2Bytes, be_eight_toNat, halves]

/-- Words 2k and 2k+1 of a list of halves are the halves of element k. -/
theorem getD_flatMap_halves {ws : List (BitVec 64)} {k : Nat} {w : BitVec 64} (h : ws[k]? = some w) :
    (ws.flatMap halves).getD (2 * k) 0 = w.extractLsb' 32 32
      ∧ (ws.flatMap halves).getD (2 * k + 1) 0 = w.extractLsb' 0 32 := by
  induction ws generalizing k with
  | nil => cases h
  | cons x ws ih =>
    cases k with
    | zero =>
      obtain rfl : x = w := by simpa using h
      exact ⟨rfl, rfl⟩
    | succ k => exact ih (by simpa using h)

/-- DIGEST word k on the bus, where DIGEST holds a string of words. -/
theorem busRead_digest_flatMap {b : Block} {ws : List Word} (hb : b.digest = Buf.ofBytes 64 (ws.flatMap wordBytes))
    {k : Nat} (hk : k < 16) : busRead b (0x080 + 4 * k) = ws.getD k 0 := by
  rw [busRead_digest b hk, hb, Buf.word_ofBytes_flatMap ws (by omega)]

/-- Settles O37: each algorithm's digest is a string of bus words, and DIGEST reads it word by word. -/
theorem digestWordsReadAsHashWords : Obligations.DigestWordsReadAsHashWords := by
  refine ⟨fun b h hb => ?sha1, fun b h hb => ?sha256, fun b h hb k w hk => ?sha512⟩
  case sha1 =>
    rw [sha1Bytes_eq_flatMap] at hb
    have read : ∀ k < 16, busRead b (0x080 + 4 * k) = _ := fun k hk => busRead_digest_flatMap hb hk
    exact ⟨read 0 (by decide), read 1 (by decide), read 2 (by decide), read 3 (by decide), read 4 (by decide)⟩
  case sha256 =>
    rw [sha256Bytes_eq_flatMap] at hb
    have read : ∀ k < 16, busRead b (0x080 + 4 * k) = _ := fun k hk => busRead_digest_flatMap hb hk
    exact ⟨read 0 (by decide), read 1 (by decide), read 2 (by decide), read 3 (by decide), read 4 (by decide),
      read 5 (by decide), read 6 (by decide), read 7 (by decide)⟩
  case sha512 =>
    rw [sha512Bytes_eq_flatMap] at hb
    have hk8 : k < 8 := (List.getElem?_eq_some_iff.mp hk).1
    obtain ⟨high, low⟩ := getD_flatMap_halves hk
    have ehigh : 0x080 + 8 * k = 0x080 + 4 * (2 * k) := by omega
    have elow : 0x084 + 8 * k = 0x080 + 4 * (2 * k + 1) := by omega
    rw [ehigh, elow, busRead_digest_flatMap hb (by omega), busRead_digest_flatMap hb (by omega)]
    exact ⟨high, low⟩

end Sys2Proof.Machine
end

section
/-! PROOFS. The sequencer: the engine's step is the completion of the pending command, every command completes, and
BUSY changes only by an issue, a completion or reset. -/

namespace Sys2Proof.Machine

/-! ## The engine's step (R31, R46) -/

/-- With the engine to move on a command in progress, a step is that command's completion. -/
theorem step_of_engineAt {s : State} {turns : List Turn} (h : s.EngineAt turns) :
    step s = exec (pendingInstr s.block) (s.withSchedule turns) := by
  obtain ⟨hr, hb, hs | ⟨hs, rfl⟩⟩ := h
  · simp [step, takeTurn, hs, runTurn, engineTurn, State.withSchedule, hb, hr]
  · have e : s.withSchedule [] = s := by cases s; cases hs; rfl
    simp [e, step, takeTurn, hs, runTurn, engineTurn, hb, hr]

/-- Every code is the code of the command it selects (R103, R104). -/
theorem encodeCode_decodeCode (c : BitVec 8) : encodeCode (decodeCode c) = c := by
  revert c; decide

/-- The four lanes of a word decode as the word. -/
theorem decodeLanes_lanesOf (w : Word) : decodeLanes (lanesOf w) = .ok (decode w) := by
  simp only [lanesOf, decodeLanes, wordOfLanes, append_wordBytes]

/-- A table word is read as a command only by decoding the bus word it is placed in. -/
theorem decodeTableWord_eq_some {nbits w : Nat} {i : Instr} (h : decodeTableWord nbits w = some i) :
    i = decode (tableWord nbits w) := by
  simp only [decodeTableWord, decodeLanes_lanesOf, Option.ite_none_right_eq_some, Option.some.injEq] at h
  exact h.2.symm

/-- A placed command word is run by the very next step. -/
theorem step_issueNext (w : Word) (s : State) :
    step (issueNext w s) = exec (decode w) { s with block := issue (codeOf w) s.block, resetAsserted := false } := by
  rw [step_of_engineAt (s := issueNext w s) (turns := s.schedule) ⟨rfl, rfl, .inl rfl⟩]
  rfl

/-- Settles O14, by the engine's step on the pending command and on a placed one. -/
theorem stepRunsThePendingCommand : Obligations.StepRunsThePendingCommand := by
  refine ⟨fun s turns h => step_of_engineAt h, fun s nbits w i h => ?_⟩
  obtain rfl := decodeTableWord_eq_some h
  rw [State.withFetchWord, step_issueNext, decode, encodeCode_decodeCode]

/-! ## Completion and its frame (R46, R102) -/

/-- What no command's body writes: CTRL, WBUSY and PENDING. -/
theorem bodyOf_frame {i : Instr} {b c : Block} (h : bodyOf i b = .ok c) :
    c.ctrlAlg = b.ctrlAlg ∧ c.ctrlDigits = b.ctrlDigits ∧ c.ctrlKsrc = b.ctrlKsrc ∧ c.ctrlIe = b.ctrlIe
      ∧ c.wbusy = b.wbusy ∧ c.pending = b.pending := by
  rcases bodyOf_ok h with ⟨-, k, -, -, rfl⟩ | ⟨-, a, -, -, rfl⟩ | ⟨-, -, -, rfl⟩ | ⟨-, rfl⟩
    | ⟨-, k, a, -, -, -, rfl⟩ | ⟨-, k, a, -, -, -, rfl⟩ | ⟨-, rfl⟩ <;> simp [generateResults]

/-- What no body but ZEROIZE's writes: SECRET, the counter, the candidate, and their lengths. -/
theorem bodyOf_frame_operands {i : Instr} {b c : Block} (h : bodyOf i b = .ok c) (hi : i ≠ .zeroize) :
    c.secret = b.secret ∧ c.secretLen = b.secretLen ∧ c.counterHi = b.counterHi ∧ c.counterLo = b.counterLo
      ∧ c.cand = b.cand ∧ c.candLen = b.candLen := by
  rcases bodyOf_ok h with ⟨-, k, -, -, rfl⟩ | ⟨-, a, -, -, rfl⟩ | ⟨-, -, -, rfl⟩ | ⟨-, rfl⟩
    | ⟨-, k, a, -, -, -, rfl⟩ | ⟨-, k, a, -, -, -, rfl⟩ | ⟨hz, -⟩
  case inr.inr.inr.inr.inr.inr => exact absurd hz hi
  all_goals simp [generateResults]

/-- Settles O19: a completion is the body's block completed, whose frame is the body's, or the old block with an
error raised. -/
theorem everyCommandCompletes : Obligations.EveryCommandCompletes := by
  intro i s
  refine ⟨_, exec_eq i s, ?_⟩
  rcases commit_cases s.block (bodyOf i s.block) with ⟨c, hc, e⟩ | ⟨err, -, e⟩ <;> rw [e]
  · obtain ⟨hAlg, hDigits, hKsrc, hIe, hWbusy, hPending⟩ := bodyOf_frame hc
    exact ⟨rfl, rfl, by simp, hAlg, hDigits, hKsrc, hIe, hWbusy, hPending,
      fun hi => bodyOf_frame_operands (c := c) hc hi, rfl, rfl, rfl, rfl⟩
  · simp

/-! ## BUSY (R31, R321) -/

/-- A completion ends in idle. -/
theorem exec_busy {i : Instr} {s t : State} (h : exec i s = .next t) : t.block.busy = false := by
  rcases exec_cases h with ⟨c, -, rfl⟩ | ⟨e, -, rfl⟩ <;> rfl

/-- A bus write raises BUSY only as the issue of a write to CMD. -/
theorem busWrite_raises_busy {off : Nat} {v : Word} {b : Block} (hw : WordOffset off) (hb : b.busy = false)
    (h : (busWrite off v b).busy = true) : off = 0x00C ∧ busWrite off v b = issue (v.extractLsb' 0 8) b := by
  have hcmd : off = 0x00C := by
    by_contra hne
    rw [busWrite_idle hb, (writeReg_sequencer v b _ (regAt_ne_of_ne rfl hw hne)).1, hb] at h
    cases h
  subst hcmd
  exact ⟨rfl, busWrite_idle hb _ v⟩

/-- No bus write ends a command in progress (R83). -/
theorem busWrite_keeps_busy (off : Nat) (v : Word) {b : Block} (hb : b.busy = true) :
    (busWrite off v b).busy = true := by
  rw [busWrite_busy hb]
  split <;> exact hb

/-- The host's turn raises BUSY only by performing a write to CMD, and the block is then the issue. -/
theorem hostTurn_raises_busy {s : State} (hs : s.block.busy = false) (h : (hostTurn s).block.busy = true) :
    ∃ v rest, s.program = writeStmt 0x00C v :: rest ∧ (hostTurn s).block = issue (v.extractLsb' 0 8) s.block := by
  obtain ⟨-, -, hsame | ⟨addr, v, rest, off, hprog, haddr, -, hw, hwrite⟩⟩ := hostTurn_cases s
  · rw [hsame, hs] at h
    cases h
  · rw [hwrite] at h ⊢
    obtain ⟨rfl, hissue⟩ := busWrite_raises_busy hw hs h
    obtain ⟨rfl, -⟩ := offsetOf_eq_some haddr
    exact ⟨v, rest, hprog, hissue⟩

theorem hostTurn_keeps_busy {s : State} (hs : s.block.busy = true) : (hostTurn s).block.busy = true := by
  obtain ⟨-, -, hsame | ⟨addr, v, rest, off, -, -, -, -, hwrite⟩⟩ := hostTurn_cases s
  · rw [hsame, hs]
  · rw [hwrite]
    exact busWrite_keeps_busy off v hs

/-- Settles O15, by what each agent's turn does to BUSY. -/
theorem busyChangesOnlyByIssueCompletionOrReset : Obligations.BusyChangesOnlyByIssueCompletionOrReset := by
  intro s t hstep
  obtain ⟨turns, h | ⟨hbusy, -, h⟩ | h | ⟨a, h⟩⟩ := step_cases s <;> rw [h] at hstep
  · cases hstep
    refine ⟨fun hs ht => hostTurn_raises_busy (s := s.withSchedule turns) hs ht, fun hs ht => ?_⟩
    exact absurd ((hostTurn_keeps_busy (s := s.withSchedule turns) hs).symm.trans ht) Bool.false_ne_true.symm
  · exact ⟨fun hs => absurd (hbusy.symm.trans hs) Bool.false_ne_true.symm, fun _ _ => .inl ⟨turns, hstep⟩⟩
  · cases hstep
    exact ⟨fun hs ht => absurd (hs.symm.trans ht) Bool.false_ne_true,
      fun hs ht => absurd (hs.symm.trans ht) Bool.false_ne_true.symm⟩
  · cases hstep
    cases a with
    | true => exact ⟨fun _ ht => (nomatch ht), fun _ _ => .inr ⟨rfl, rfl⟩⟩
    | false => exact ⟨fun hs ht => absurd (hs.symm.trans ht) Bool.false_ne_true,
        fun hs ht => absurd (hs.symm.trans ht) Bool.false_ne_true.symm⟩

end Sys2Proof.Machine
end

section
/-! PROOFS. The bus: what a write does to the block while idle and while busy, which transactions the block does not
serve, and the byte lanes that make a command. -/

namespace Sys2Proof.Machine

/-! ## CTRL and STATUS, bit by bit (R34, R36) -/

theorem getLsbD_statusWord (b : Block) (i : Nat) :
    (statusWord b).getLsbD i = [b.busy, b.done, b.err, b.wbusy].getD i false := by
  simp only [statusWord, bit, BitVec.getLsbD_append]
  match i with
  | 0 => simp
  | 1 => simp
  | 2 => simp
  | 3 => simp
  | i + 4 => simp

/-- A write of STATUS clears the W1C bits of the word that it reads as. -/
theorem statusWord_clearStatus (v : Word) (b : Block) :
    statusWord (clearStatus v b) = statusWord b &&& ~~~(v &&& 0x0000000E#32) := by
  apply BitVec.eq_of_getLsbD_eq
  intro i hi
  simp only [BitVec.getLsbD_and, BitVec.getLsbD_not, getLsbD_statusWord, hi, decide_true, Bool.true_and]
  match i with
  | 0 => simp
  | 1 => simp
  | 2 => simp
  | 3 => simp
  | i + 4 => simp

/-- CTRL reads back the bits of the word written that are not reserved. -/
theorem ctrlWord_writeCtrl (v : Word) (b : Block) : ctrlWord (writeCtrl v b) = v &&& 0x000003F3#32 := by
  apply BitVec.eq_of_getLsbD_eq
  intro i hi
  simp only [ctrlWord, bit, BitVec.getLsbD_append, BitVec.getLsbD_and]
  interval_cases i <;> simp

/-! ## Register writes (R82) -/

/-- A write to a register but CMD keeps every other register. -/
theorem readReg_writeReg_other (v : Word) (b : Block) {r r' : Reg} (hcmd : r ≠ .cmd) (h : r' ≠ r) :
    readReg (writeReg v b r) r' = readReg b r' := by
  cases r
  case cmd => exact absurd rfl hcmd
  case cand k =>
    cases r'
    case cand j => exact Buf.word_setWord_other b.cand j k v fun e => h (e ▸ rfl)
    all_goals rfl
  case secret k =>
    cases r'
    case secret j => exact Buf.word_setWord_other b.secret j k v fun e => h (e ▸ rfl)
    all_goals rfl
  case key k =>
    cases r'
    case key j => exact Buf.word_setWord_other b.key j k v fun e => h (e ▸ rfl)
    all_goals rfl
  case ctrl | status | secretLen | keyLen | counterHi | counterLo | candLen =>
    cases r' <;> first | exact absurd rfl h | rfl
  all_goals rfl

/-- A register word that the host may write reads the word written. -/
theorem busRead_busWrite_writable {b : Block} {off : Nat} (hw : WordOffset off) (hb : b.busy = false)
    (h : WritableWord off) (v : Word) : busRead (busWrite off v b) off = v := by
  obtain ⟨haligned, -⟩ := hw
  rw [busWrite_idle hb, busRead]
  rcases h with rfl | rfl | rfl | rfl | rfl | h | h | h
  · rfl
  · rfl
  · rfl
  · rfl
  · rfl
  · obtain ⟨k, rfl⟩ : ∃ k, off = 0x050 + 4 * k := ⟨(off - 0x050) / 4, by omega⟩
    have hk : k < 2 := by omega
    rw [regAt_of_regOffset (r := .cand k) (if_pos hk)]
    exact Buf.word_setWord_same b.cand k v (by omega)
  · obtain ⟨k, rfl⟩ : ∃ k, off = 0x100 + 4 * k := ⟨(off - 0x100) / 4, by omega⟩
    have hk : k < 64 := by omega
    rw [regAt_of_regOffset (r := .secret k) (if_pos hk)]
    exact Buf.word_setWord_same b.secret k v (by omega)
  · obtain ⟨k, rfl⟩ : ∃ k, off = 0x200 + 4 * k := ⟨(off - 0x200) / 4, by omega⟩
    have hk : k < 40 := by omega
    rw [regAt_of_regOffset (r := .key k) (if_pos hk)]
    exact Buf.word_setWord_same b.key k v (by omega)

/-- A write to a register that takes none, named by its offset, does nothing. -/
theorem writeReg_of_not_writable {r : Reg} {off : Nat} (hr : regOffset r = some off) (h : ¬WritableWord off)
    (hctrl : off ≠ 0x008) (hstatus : off ≠ 0x010) (hcmd : off ≠ 0x00C) (v : Word) (b : Block) :
    writeReg v b r = b := by
  unfold WritableWord at h
  cases r
  case ctrl | status | cmd | secretLen | keyLen | counterHi | counterLo | candLen =>
    simp only [regOffset, Option.some.injEq] at hr
    omega
  case cand k | secret k | key k =>
    simp only [regOffset, Option.ite_none_right_eq_some, Option.some.injEq] at hr
    omega
  all_goals rfl

/-- An idle write at a read-only or reserved offset does nothing. -/
theorem busWrite_of_not_writable {b : Block} {off : Nat} (hw : WordOffset off) (hb : b.busy = false)
    (h : ¬WritableWord off) (hctrl : off ≠ 0x008) (hstatus : off ≠ 0x010) (hcmd : off ≠ 0x00C) (v : Word) :
    busWrite off v b = b := by
  rw [busWrite_idle hb]
  rcases regAt_cases hw with hr | hr
  · exact writeReg_of_not_writable hr h hctrl hstatus hcmd v b
  · rw [hr, writeReg]

/-- An idle write at an offset but CMD's keeps what every other offset reads. -/
theorem busRead_busWrite_other {b : Block} {off off' : Nat} (hw : WordOffset off) (hw' : WordOffset off')
    (hb : b.busy = false) (hcmd : off ≠ 0x00C) (hne : off' ≠ off) (v : Word) :
    busRead (busWrite off v b) off' = busRead b off' := by
  rw [busWrite_idle hb]
  by_cases hreg : regAt off' = regAt off
  · have hres : regAt off = .reserved := by
      by_contra hr
      exact hne (regAt_injective hw hw' hreg.symm hr).symm
    rw [hres, writeReg]
  · exact readReg_writeReg_other v b (regAt_ne_of_ne rfl hw hcmd) hreg

/-- A whole-word write at a word offset, with reset released, is answered as taken. -/
theorem writeResponse_word {s : State} {off : Nat} (hw : WordOffset off)
    (hr : s.resetAsserted = false) : writeResponse (addressOf off) .word s = .writeDone := by
  simp [writeResponse, offsetOf_addressOf hw.2, hr, legalAccess, hw.1]

/-- A write step of the host takes its statement off the program and is answered without an error. -/
theorem step_write {s : State} {off : Nat} {v : Word} {rest : List HostStmt} {turns : List Turn}
    (hw : WordOffset off) (h : s.HostAt (writeStmt off v) rest turns) :
    step s = .next { s with
      block := busWrite off v s.block
      program := rest
      schedule := turns
      responses := .writeDone :: s.responses } := by
  have hr : (s.withSchedule turns).resetAsserted = false := h.1
  rw [step_of_hostAt h]
  simp only [writeStmt, performStmt, writeEffect_word hw hr, writeResponse_word hw hr]
  rfl

/-- Settles O8: the idle write at each kind of offset, its frame, and the host's write step. -/
theorem idleWriteStoresExactlyItsRegister : Obligations.IdleWriteStoresExactlyItsRegister := by
  refine ⟨fun b off v hw hb => ⟨fun h => busRead_busWrite_writable hw hb h v, ?ctrl, ?status, ?cmd,
    fun h hctrl hstatus hcmd => busWrite_of_not_writable hw hb h hctrl hstatus hcmd v, fun hcmd => ⟨?pending,
      fun off' hw' hne => busRead_busWrite_other hw hw' hb hcmd hne v⟩⟩, fun s off v rest turns hw h => step_write hw h⟩
  case ctrl =>
    rintro rfl
    rw [busWrite_idle hb]
    exact ⟨rfl, rfl, rfl, rfl, ctrlWord_writeCtrl v b⟩
  case status =>
    rintro rfl
    rw [busWrite_idle hb]
    exact statusWord_clearStatus v b
  case cmd =>
    rintro rfl
    exact busWrite_idle hb 0x00C v
  case pending =>
    rw [busWrite_idle hb]
    exact (writeReg_sequencer v b _ (regAt_ne_of_ne rfl hw hcmd)).2.1

/-! ## Writes to a busy block (R83) -/

/-- `c` is `b` up to the W1C flags of STATUS. -/
def SameButFlags (b c : Block) : Prop := c = { b with done := c.done, err := c.err, wbusy := c.wbusy }

theorem SameButFlags.trans {a b c : Block} (h : SameButFlags a b) (h' : SameButFlags b c) : SameButFlags a c := by
  unfold SameButFlags at h h' ⊢
  rw [h', h]

theorem SameButFlags.busy {b c : Block} (h : SameButFlags b c) : c.busy = b.busy := by rw [h]

/-- Busy, the block keeps all but its W1C flags over a bus write. -/
theorem busWrite_sameButFlags {b : Block} (hb : b.busy = true) (off : Nat) (v : Word) :
    SameButFlags b (busWrite off v b) := by
  rw [busWrite_busy hb]
  split <;> rfl

theorem hostTurn_sameButFlags {s : State} (hs : s.block.busy = true) : SameButFlags s.block (hostTurn s).block := by
  obtain ⟨-, -, hsame | ⟨addr, v, rest, off, -, -, -, -, hwrite⟩⟩ := hostTurn_cases s
  · rw [hsame]; rfl
  · rw [hwrite]
    exact busWrite_sameButFlags hs off v

/-- A host turn at the head of the schedule is the next step; over a command in progress it leaves all but the W1C
flags. -/
theorem step_host_turn_sameButFlags {s : State} {turns : List Turn} (hb : s.block.busy = true)
    (hs : s.schedule = .host :: turns) :
    ∃ u, step s = .next u ∧ u.schedule = turns ∧ u.resetAsserted = s.resetAsserted
      ∧ SameButFlags s.block u.block := by
  obtain ⟨hreset, hsched, -⟩ := hostTurn_cases (s.withSchedule turns)
  have hstep : step s = .next (hostTurn (s.withSchedule turns)) := by
    simp only [step, takeTurn, hs]
    rfl
  exact ⟨_, hstep, hsched, hreset, hostTurn_sameButFlags (s := s.withSchedule turns) hb⟩

/-- Any number of host turns over a command in progress leaves all but the W1C flags. -/
theorem stepsTo_host_turns_sameButFlags (k : Nat) {s : State} {turns : List Turn} (hb : s.block.busy = true)
    (hr : s.resetAsserted = false) (hs : s.schedule = List.replicate k .host ++ turns) :
    ∃ t, StepsTo k s t ∧ t.schedule = turns ∧ t.resetAsserted = false ∧ SameButFlags s.block t.block := by
  induction k generalizing s with
  | zero => exact ⟨s, rfl, hs, hr, rfl⟩
  | succ k ih =>
    obtain ⟨u, hstep, husched, hureset, husame⟩ := step_host_turn_sameButFlags hb hs
    obtain ⟨t, hsteps, htsched, htreset, htsame⟩ := ih (husame.busy.trans hb) (hureset.trans hr) husched
    exact ⟨t, ⟨u, hstep, hsteps⟩, htsched, htreset, husame.trans htsame⟩

/-- Settles O9: a busy write is a STATUS write or is dropped, neither changes more than the W1C flags, and so no
number of host turns does. -/
theorem busyWriteIsDroppedAndFlagged : Obligations.BusyWriteIsDroppedAndFlagged :=
  ⟨fun _ off v _ hb => busWrite_busy hb off v, fun k _ _ hb hr hs => stepsTo_host_turns_sameButFlags k hb hr hs⟩

/-! ## Reserved offsets (R84) -/

theorem not_writable_of_reserved {off : Nat} (h : ReservedOffset off) : ¬WritableWord off := by
  unfold ReservedOffset at h
  unfold WritableWord
  omega

/-- Settles O10: the reserved offsets hold no register, and none of them is STATUS. -/
theorem reservedOffsetsReadZeroIgnoreWrites : Obligations.ReservedOffsetsReadZeroIgnoreWrites := by
  intro b off v _ hres
  refine ⟨busRead_reserved b hres, fun hb => ?_, fun hb => ?_⟩
  · rw [busWrite_idle hb, regAt_reserved hres, writeReg]
  · have hne : off ≠ 0x010 := by unfold ReservedOffset at hres; omega
    rw [busWrite_busy hb, if_neg hne, dropWrite]

/-! ## Transactions that the block does not serve (R85) -/

theorem legalAccess_eq_false {off : Nat} {size : AccessSize} (h : size ≠ .word ∨ off % 4 ≠ 0) :
    legalAccess off size = false := by
  rcases h with h | h <;> simp [legalAccess, h]

/-- Inside the window a misaligned or narrow read is answered with a bus error. -/
theorem readResponse_illegal {s : State} {off : Nat} {size : AccessSize} (hoff : off < Config.windowSize)
    (hr : s.resetAsserted = false) (h : legalAccess off size = false) :
    readResponse (addressOf off) size s = .busError 0#32 := by
  simp [readResponse, offsetOf_addressOf hoff, hr, h]

/-- Inside the window a misaligned or narrow write is answered with a bus error. -/
theorem writeResponse_illegal {s : State} {off : Nat} {size : AccessSize} (hoff : off < Config.windowSize)
    (hr : s.resetAsserted = false) (h : legalAccess off size = false) :
    writeResponse (addressOf off) size s = .busError 0#32 := by
  simp [writeResponse, offsetOf_addressOf hoff, hr, h]

theorem writeEffect_illegal {s : State} {off : Nat} {size : AccessSize} (hoff : off < Config.windowSize)
    (hr : s.resetAsserted = false) (h : legalAccess off size = false) (v : Word) :
    writeEffect (addressOf off) size v s = s.block := by
  simp [writeEffect, offsetOf_addressOf hoff, hr, h]

theorem offsetOf_eq_none {addr : Nat} (h : addr < Config.base ∨ Config.base + Config.windowSize ≤ addr) :
    offsetOf addr = none := if_neg (by omega)

/-- A write outside the window does not reach the block. -/
theorem writeEffect_outside {addr : Nat} (h : offsetOf addr = none) (size : AccessSize) (v : Word) (s : State) :
    writeEffect addr size v s = s.block := by rw [writeEffect, h]

/-- Settles O11: inside the window the access fails the check of `legalAccess`; outside it has no offset. -/
theorem misalignedOrNarrowIsABusError : Obligations.MisalignedOrNarrowIsABusError := by
  refine ⟨fun s off size v rest turns hoff hbad => ⟨fun h => ?read, fun h => ?write⟩,
    fun s addr size v rest turns hout h => ?outside⟩
  case read =>
    have hr : (s.withSchedule turns).resetAsserted = false := h.1
    rw [step_of_hostAt h, performStmt, readResponse_illegal hoff hr (legalAccess_eq_false hbad)]
    rfl
  case write =>
    have hr : (s.withSchedule turns).resetAsserted = false := h.1
    have hillegal := legalAccess_eq_false hbad
    rw [step_of_hostAt h, performStmt, writeEffect_illegal hoff hr hillegal, writeResponse_illegal hoff hr hillegal]
    rfl
  case outside =>
    rcases h with h | h
    · exact ⟨_, step_of_hostAt h, rfl, rfl⟩
    · exact ⟨_, step_of_hostAt h, writeEffect_outside (offsetOf_eq_none hout) size v _, rfl⟩

/-! ## Repeated writes (R88) -/

theorem clearStatus_clearStatus (v : Word) (b : Block) : clearStatus v (clearStatus v b) = clearStatus v b := by
  simp [clearStatus]

/-- A register but CMD takes the same word twice as once. -/
theorem writeReg_writeReg (v : Word) (b : Block) {r : Reg} (h : r ≠ .cmd) :
    writeReg v (writeReg v b r) r = writeReg v b r := by
  cases r
  case cmd => exact absurd rfl h
  case status => exact clearStatus_clearStatus v b
  case cand k | secret k | key k => simp only [writeReg, Buf.setWord_setWord]
  all_goals rfl

/-- Settles O12: the first write keeps BUSY, so the second meets the same register, or is dropped again. -/
theorem repeatedWriteChangesNothing : Obligations.RepeatedWriteChangesNothing := by
  intro b off v hw hcmd
  have hreg : regAt off ≠ .cmd := regAt_ne_of_ne rfl hw hcmd
  cases hb : b.busy with
  | false =>
    have hb' : (writeReg v b (regAt off)).busy = false := (writeReg_sequencer v b _ hreg).1.trans hb
    rw [busWrite_idle hb, busWrite_idle hb', writeReg_writeReg v b hreg]
  | true =>
    rw [busWrite_busy (busWrite_keeps_busy off v hb), busWrite_busy hb]
    split
    · exact clearStatus_clearStatus v b
    · rfl

/-! ## The decoder's byte lanes (R87, R100) -/

/-- Settles O4: a word's lanes decode as the word, and any other number of lanes is rejected by its length. -/
theorem decoderTakesWholeWordsOnly : Obligations.DecoderTakesWholeWordsOnly := by
  refine ⟨decodeLanes_lanesOf, fun lanes => ⟨fun hshort => ?_, fun hlong => ?_⟩⟩
  · match lanes with
    | [] | [_] | [_, _] | [_, _, _] => rfl
    | _ :: _ :: _ :: _ :: _ => simp only [List.length_cons] at hshort; omega
  · match lanes with
    | [] | [_] | [_, _] | [_, _, _] | [_, _, _, _] => simp at hlong
    | _ :: _ :: _ :: _ :: _ :: _ => rfl

end Sys2Proof.Machine
end

section
/-! PROOFS. Command words: decoding and encoding are inverse on the well-formed commands, and the rows of the opcode
table part the command words between them. -/

namespace Sys2Proof.Machine

/-! ## Decoding and encoding (R100, R103, R104) -/

/-- Bits [31:8] of a command word are ignored. -/
theorem codeOf_append (high : BitVec 24) (c : BitVec 8) : codeOf (high ++ c) = c := by
  apply BitVec.eq_of_getLsbD_eq
  intro i hi
  rw [codeOf, BitVec.getLsbD_extractLsb', Nat.zero_add, BitVec.getLsbD_append]
  simp [hi]

/-- The bus word of a command is its code below 24 zero bits. -/
theorem encode_eq_append (i : Instr) : encode i = 0#24 ++ encodeCode i :=
  BitVec.setWidth_eq_append (by decide)

/-- A well-formed command is what its own code selects; a range row's code misses every row before it. -/
theorem decodeCode_encodeCode {i : Instr} (h : i.WellFormed = true) : decodeCode (encodeCode i) = i := by
  cases i with
  | decode | hmac | trunc | compare | generate | verify | zeroize | illegal00 => rfl
  | illegal08 c | illegal10 c | illegal20 c | illegal40 c | illegal80 c => revert h c; decide

theorem wellFormed_decodeCode (c : BitVec 8) : (decodeCode c).WellFormed = true := by
  revert c; decide

theorem decode_append_encodeCode {i : Instr} (h : i.WellFormed = true) (high : BitVec 24) :
    decode (high ++ encodeCode i) = i := by
  rw [decode, codeOf_append, decodeCode_encodeCode h]

/-- Settles O2: only the code of a word is looked at, and `decodeCode` and `encodeCode` are inverse on it. -/
theorem decodeAndEncodeAgree : Obligations.DecodeAndEncodeAgree :=
  ⟨fun i h => encode_eq_append i ▸ decode_append_encodeCode h 0#24,
    fun _ high h => decode_append_encodeCode h high,
    fun c => ⟨wellFormed_decodeCode c, encodeCode_decodeCode c⟩⟩

/-- Settles O1, word by word. -/
theorem writtenWordsDecode : Obligations.WrittenWordsDecode := by
  unfold Obligations.WrittenWordsDecode
  decide

/-! ## The rows of the opcode table (R103, R104) -/

/-- Every row fixes bits of CODE only. -/
theorem maskBits_in_code : ∀ r ∈ opcodeTable, 0x000000FF#32 &&& r.maskBits = r.maskBits := by decide

/-- Two rows of the table differ in a bit that both of them fix. -/
theorem opcodeTable_pairwise_conflict :
    opcodeTable.Pairwise fun r q => r.matchBits &&& q.maskBits ≠ q.matchBits &&& r.maskBits := by decide

/-- The bus word of the command that a word decodes to is the word with its ignored bits cleared. -/
theorem encode_decode (w : Word) : encode (decode w) = w &&& 0x000000FF#32 := by
  rw [encode, decode, encodeCode_decodeCode]
  apply BitVec.eq_of_getLsbD_eq
  intro i hi
  have code_bit : (0x000000FF#32).getLsbD i = decide (i < 8) := by revert i; decide
  simp only [codeOf, BitVec.getLsbD_setWidth, BitVec.getLsbD_extractLsb', BitVec.getLsbD_and, code_bit, hi]
  simp [Bool.and_comm]

/-- A row does not look at the ignored bits. -/
theorem fits_encode_decode {r : Row} (hr : r ∈ opcodeTable) (w : Word) : r.fits (encode (decode w)) = r.fits w := by
  rw [Row.fits, encode_decode, BitVec.and_assoc, maskBits_in_code r hr, Row.fits]

/-- Every well-formed command's word fits the row of that command. -/
theorem encode_fits_row (i : Instr) : Laws.RowFit.Statement i := by
  cases i with
  | decode => exact Laws.RowFit.decode
  | hmac => exact Laws.RowFit.hmac
  | trunc => exact Laws.RowFit.trunc
  | compare => exact Laws.RowFit.compare
  | generate => exact Laws.RowFit.generate
  | verify => exact Laws.RowFit.verify
  | zeroize => exact Laws.RowFit.zeroize
  | illegal00 => exact Laws.RowFit.illegal00
  | illegal08 c => exact Laws.RowFit.illegal08 c
  | illegal10 c => exact Laws.RowFit.illegal10 c
  | illegal20 c => exact Laws.RowFit.illegal20 c
  | illegal40 c => exact Laws.RowFit.illegal40 c
  | illegal80 c => exact Laws.RowFit.illegal80 c

theorem word_fits_its_row (w : Word) : ∃ r, opcodeTable[(decode w).rowIndex]? = some r ∧ r.fits w = true := by
  obtain ⟨r, hr, hfits⟩ := encode_fits_row (decode w) (wellFormed_decodeCode (codeOf w))
  exact ⟨r, hr, fits_encode_decode (List.mem_of_getElem? hr) w ▸ hfits⟩

/-- Two rows that fit one word agree in every bit that both of them fix. -/
theorem matchBits_agree_of_fits {r q : Row} {w : Word} (hr : r.fits w = true) (hq : q.fits w = true) :
    r.matchBits &&& q.maskBits = q.matchBits &&& r.maskBits := by
  have hr' : w &&& r.maskBits = r.matchBits := eq_of_beq hr
  have hq' : w &&& q.maskBits = q.matchBits := eq_of_beq hq
  rw [← hr', ← hq', BitVec.and_assoc, BitVec.and_assoc, BitVec.and_comm r.maskBits]

/-- No earlier row of the table fits a word that a later one fits. -/
theorem not_fits_of_lt {j k : Nat} {r q : Row} {w : Word} (hj : opcodeTable[j]? = some r)
    (hk : opcodeTable[k]? = some q) (h : j < k) (hr : r.fits w = true) : ¬q.fits w = true := by
  obtain ⟨hj', rfl⟩ := List.getElem?_eq_some_iff.mp hj
  obtain ⟨hk', rfl⟩ := List.getElem?_eq_some_iff.mp hk
  exact fun hq => List.pairwise_iff_getElem.mp opcodeTable_pairwise_conflict j k hj' hk' h
    (matchBits_agree_of_fits hr hq)

/-- A word fits one row of the table at most. -/
theorem row_unique {j k : Nat} {r q : Row} {w : Word} (hj : opcodeTable[j]? = some r)
    (hk : opcodeTable[k]? = some q) (hr : r.fits w = true) (hq : q.fits w = true) : j = k := by
  rcases Nat.lt_trichotomy j k with h | h | h
  · exact absurd hq (not_fits_of_lt hj hk h hr)
  · exact h
  · exact absurd hr (not_fits_of_lt hk hj h hq)

/-- Settles O3: the word fits the row of its command, and no other beside it. -/
theorem everyWordMatchesExactlyItsRow : Obligations.EveryWordMatchesExactlyItsRow := by
  intro w k r hk
  obtain ⟨q, hq, hfits⟩ := word_fits_its_row w
  refine ⟨fun hr => row_unique hk hq hr hfits, ?_⟩
  rintro rfl
  obtain rfl : q = r := Option.some.inj (hq.symm.trans hk)
  exact hfits

end Sys2Proof.Machine
end

section
/-! PROOFS. Host programs and runs: the words that WBYTES writes, and the polls of a WAIT. -/

namespace Sys2Proof.Machine

/-! ## Runs -/

theorem StepsTo.trans {m n : Nat} {s t u : State} (h : StepsTo m s t) (h' : StepsTo n t u) :
    StepsTo (m + n) s u := by
  induction m generalizing s with
  | zero =>
    obtain rfl : s = t := h
    rwa [Nat.zero_add]
  | succ m ih =>
    obtain ⟨v, hstep, hv⟩ := h
    rw [Nat.succ_add]
    exact ⟨v, hstep, ih hv⟩

/-! ## Words into a buffer (R48, R82) -/

/-- A buffer after the writes of the words `ks`, word k taking `f k`. -/
def Buf.setWords {n : Nat} (f : Nat → Word) : List Nat → Buf n → Buf n
  | [], b => b
  | k :: ks, b => Buf.setWords f ks (b.setWord k (f k))

/-- A byte of a written word is that word's; every other byte stays. -/
theorem Buf.byte_setWords {n : Nat} (f : Nat → Word) (ks : List Nat) (b : Buf n) (i : Nat) :
    (Buf.setWords f ks b).byte i =
      if i < n ∧ i / 4 ∈ ks then (wordBytes (f (i / 4))).getD (i % 4) 0#8 else b.byte i := by
  induction ks generalizing b with
  | nil => simp [Buf.setWords]
  | cons k ks ih =>
    rw [Buf.setWords, ih, Buf.byte_setWord]
    by_cases hn : i < n
    · by_cases hks : i / 4 ∈ ks
      · simp [hn, hks]
      · by_cases hk : i / 4 = k
        · subst hk; simp [hn]
        · simp [hks, hk]
    · simp [hn]

/-- A bus write of a SECRET word while idle. -/
theorem busWrite_secret {b : Block} (hb : b.busy = false) {k : Nat} (hk : k < 64) (v : Word) :
    busWrite (0x100 + 4 * k) v b = { b with secret := b.secret.setWord k v } := by
  rw [busWrite_idle hb, regAt_of_regOffset (r := .secret k) (if_pos hk)]
  rfl

theorem wordOffset_secret {k : Nat} (hk : k < 64) : WordOffset (0x100 + 4 * k) := by
  unfold WordOffset Config.windowSize
  omega

/-- A host program that only writes SECRET words, on an idle machine, runs to its end and does just that. -/
theorem stepsTo_secret_writes (f : Nat → Word) {ks : List Nat} (hks : ∀ k ∈ ks, k < 64) {s : State}
    (hb : s.block.busy = false) (hr : s.resetAsserted = false) (hsched : s.schedule = [])
    (hp : s.program = ks.map fun k => writeStmt (0x100 + 4 * k) (f k)) :
    ∃ t, StepsTo ks.length s t ∧ t.program = []
      ∧ t.block = { s.block with secret := Buf.setWords f ks s.block.secret } := by
  induction ks generalizing s with
  | nil => exact ⟨s, rfl, hp, rfl⟩
  | cons k ks ih =>
    rw [List.forall_mem_cons] at hks
    obtain ⟨hk, hks⟩ := hks
    have hstep := step_write (wordOffset_secret hk) (turns := []) ⟨hr, hp, .inr ⟨hsched, rfl, hb⟩⟩
    rw [busWrite_secret hb hk] at hstep
    obtain ⟨t, hsteps, hprog, hblock⟩ := ih (s := { s with
      block := { s.block with secret := s.block.secret.setWord k (f k) }
      program := ks.map fun k => writeStmt (0x100 + 4 * k) (f k)
      schedule := []
      responses := .writeDone :: s.responses }) hks hb hr rfl rfl
    exact ⟨t, ⟨_, hstep, hsteps⟩, hprog, hblock⟩

/-! ## WBYTES (R111) -/

/-- A byte string is the big-endian encoding of its integer (R7). -/
theorem be_intBe (s : List Byte) : be s.length (intBe s) = s := by
  induction s using List.reverseRecOn with
  | nil => rfl
  | append_singleton s c ih =>
    have hc := c.isLt
    have hval : intBe (s ++ [c]) = intBe s * 256 + c.toNat := by simp [intBe]
    have hhigh : (intBe s * 256 + c.toNat) / 256 = intBe s := by omega
    have hlow : BitVec.ofNat 8 (intBe s * 256 + c.toNat) = c := by
      apply BitVec.eq_of_toNat_eq
      rw [BitVec.toNat_ofNat]
      omega
    rw [List.length_append, List.length_singleton, be_succ, hval, hhigh, hlow, ih]

/-- The bytes of the bus word made of four bytes are those four. -/
theorem wordBytes_ofNat_intBe {s : List Byte} (h : s.length = 4) : wordBytes (BitVec.ofNat 32 (intBe s)) = s := by
  have hlt : intBe s < 2 ^ 32 := by simpa [h] using intBe_lt s
  rw [← be_four_toNat, BitVec.toNat_ofNat, Nat.mod_eq_of_lt hlt, ← h]
  exact be_intBe s

theorem getD_slice (s : List Byte) {i j m : Nat} (h : i + m < j) :
    (slice s i j).getD m 0#8 = s.getD (i + m) 0#8 := by
  have hm : m < j - i := by omega
  simp [slice, List.getD_eq_getElem?_getD, hm]

/-- The word that WBYTES writes to buffer word k. -/
def bytesWord (bytes : List Byte) (k : Nat) : Word :=
  BitVec.ofNat 32 (intBe (padTo 4 (slice bytes (4 * k) (4 * k + 4))))

/-- Byte j of the k-th word of WBYTES is byte 4k + j of the string; past the string's end, zero. -/
theorem getD_wordBytes_bytesWord (bytes : List Byte) (k : Nat) {j : Nat} (hj : j < 4) :
    (wordBytes (bytesWord bytes k)).getD j 0#8 = bytes.getD (4 * k + j) 0#8 := by
  rw [bytesWord, wordBytes_ofNat_intBe (length_padTo 4 _), getD_padTo, if_pos hj, getD_slice bytes (by omega)]

/-- SECRET after WBYTES: the string and zeros up to the end of the last word written, and the old bytes beyond. -/
theorem byte_setWords_bytesWord (bytes : List Byte) {count : Nat} (hcount : count ≤ 64) (b : Buf 256) (i : Nat) :
    (Buf.setWords (bytesWord bytes) (List.range count) b).byte i =
      if i < 4 * count then bytes.getD i 0#8 else b.byte i := by
  rw [Buf.byte_setWords, getD_wordBytes_bytesWord bytes _ (Nat.mod_lt i (by decide)), Nat.div_add_mod]
  have hiff : i < 256 ∧ i / 4 ∈ List.range count ↔ i < 4 * count := by
    rw [List.mem_range]
    omega
  simp only [hiff]

/-- Settles O13: the run of WBYTES is the writes of its words, and each byte of SECRET is read off them. -/
theorem wbytesFillsTheSecret : Obligations.WbytesFillsTheSecret := by
  intro s bytes hlen hb hr hsched hp
  have hcount : (bytes.length + 3) / 4 ≤ 64 := by omega
  obtain ⟨t, hsteps, hprog, hblock⟩ := stepsTo_secret_writes (bytesWord bytes)
    (ks := List.range ((bytes.length + 3) / 4)) (fun k hk => (List.mem_range.mp hk).trans_le hcount) hb hr hsched hp
  have hsecret : ∀ i, t.block.secret.byte i =
      if i < 4 * ((bytes.length + 3) / 4) then bytes.getD i 0#8 else s.block.secret.byte i := by
    intro i
    rw [hblock]
    exact byte_setWords_bytesWord bytes hcount s.block.secret i
  refine ⟨t, ?steps, hprog, fun i hi => ?given, fun i hi hi' => ?padding, fun i hi => ?beyond, by rw [hblock]⟩
  case steps => rwa [hp, bytesStmts, List.length_map]
  case given => rw [hsecret, if_pos (by omega)]
  case padding => rw [hsecret, if_pos hi', List.getD_eq_default _ _ hi]
  case beyond => rw [hsecret, if_neg (by omega)]

/-! ## WAIT (R111) -/

theorem getLsbD_busRead_status_busy (b : Block) : (busRead b 0x010).getLsbD 0 = b.busy := getLsbD_statusWord b 0

theorem wordOffset_status : WordOffset 0x010 := by unfold WordOffset; decide

/-- A poll of STATUS is answered, and takes the WAIT off the program exactly when BUSY = 0. -/
theorem step_wait {s : State} {rest : List HostStmt} {turns : List Turn} (h : s.HostAt .wait rest turns) :
    step s = .next { s with
      program := if s.block.busy then s.program else rest
      schedule := turns
      responses := .readData (busRead s.block 0x010) :: s.responses } := by
  have hr : (s.withSchedule turns).resetAsserted = false := h.1
  rw [step_of_hostAt h, performStmt, readResponse_word wordOffset_status hr, waitEnds, withSchedule_block,
    getLsbD_busRead_status_busy]
  cases s.block.busy <;> rfl

/-- While BUSY = 1, any number of polls changes nothing but the schedule and the answers. -/
theorem stepsTo_polls (k : Nat) {s : State} {rest : List HostStmt} {turns : List Turn} (hb : s.block.busy = true)
    (hr : s.resetAsserted = false) (hp : s.program = .wait :: rest) (hs : s.schedule = List.replicate k .host ++ turns) :
    StepsTo k s { s with
      schedule := turns
      responses := List.replicate k (.readData (busRead s.block 0x010)) ++ s.responses } := by
  induction k generalizing s with
  | zero => cases s; cases hs; rfl
  | succ k ih =>
    have hstep := step_wait ⟨hr, hp, .inl hs⟩
    rw [if_pos hb] at hstep
    refine ⟨_, hstep, ?_⟩
    have hpolls := ih (s := { s with
      schedule := List.replicate k .host ++ turns
      responses := .readData (busRead s.block 0x010) :: s.responses }) hb hr hp rfl
    rw [List.replicate_succ', List.append_assoc]
    exact hpolls

/-- The schedule plays no part in a command's completion. -/
theorem exec_withSchedule {i : Instr} {s u : State} (h : exec i s = .next u) (turns : List Turn) :
    exec i (s.withSchedule turns) = .next (u.withSchedule turns) := by
  rw [exec_next h, exec_eq]
  rfl

/-- The completion of the command in progress and the poll after it: BUSY = 0, and the WAIT is off the program. -/
theorem stepsTo_completion_then_poll {s u : State} {rest : List HostStmt} {turns : List Turn}
    (hb : s.block.busy = true) (hr : s.resetAsserted = false) (hp : s.program = .wait :: rest)
    (hs : s.schedule = .engine :: .host :: turns ∨ (s.schedule = [] ∧ turns = []))
    (hu : exec (pendingInstr s.block) s = .next u) :
    StepsTo 2 s { s with
      block := u.block
      program := rest
      schedule := turns
      responses := .readData (busRead u.block 0x010) :: s.responses } := by
  have hidle : u.block.busy = false := exec_busy hu
  obtain ⟨turns', hengine, hhost⟩ : ∃ turns', s.EngineAt turns' ∧ (u.withSchedule turns').HostAt .wait rest turns := by
    obtain rfl := exec_next hu
    rcases hs with hs | ⟨hs, rfl⟩
    · exact ⟨.host :: turns, ⟨hr, hb, .inl hs⟩, hr, hp, .inl rfl⟩
    · exact ⟨[], ⟨hr, hb, .inr ⟨hs, rfl⟩⟩, hr, hp, .inr ⟨rfl, rfl, hidle⟩⟩
  have hcompletion : step s = .next (u.withSchedule turns') := by
    rw [step_of_engineAt hengine, exec_withSchedule hu]
  have hpoll := step_wait hhost
  rw [withSchedule_block, if_neg (by simp [hidle])] at hpoll
  refine ⟨_, hcompletion, _, hpoll, ?_⟩
  rw [exec_next hu]
  rfl

/-- With the host to move, a step is the host's turn, whatever the reset input's level. -/
theorem step_of_host_turn {s : State} {turns : List Turn}
    (hs : s.schedule = .host :: turns ∨ (s.schedule = [] ∧ turns = [] ∧ s.block.busy = false)) :
    step s = .next (hostTurn (s.withSchedule turns)) := by
  rcases hs with hs | ⟨hs, rfl, hb⟩
  · simp only [step, takeTurn, hs]
    rfl
  · have hsame : s.withSchedule [] = s := by cases s; cases hs; rfl
    simp [hsame, step, takeTurn, hs, hb, runTurn]

theorem readResponse_in_reset {s : State} (hr : s.resetAsserted = true) (addr : Nat) (size : AccessSize) :
    readResponse addr size s = .unanswered := by
  unfold readResponse
  cases offsetOf addr with
  | none => rfl
  | some off => exact if_pos hr

/-- While reset is asserted a poll is not answered, and the WAIT stays. -/
theorem step_wait_in_reset {s : State} {rest : List HostStmt} {turns : List Turn} (hr : s.resetAsserted = true)
    (hp : s.program = .wait :: rest)
    (hs : s.schedule = .host :: turns ∨ (s.schedule = [] ∧ turns = [] ∧ s.block.busy = false)) :
    step s = .next { s with schedule := turns, responses := .unanswered :: s.responses } := by
  have hr' : (s.withSchedule turns).resetAsserted = true := hr
  have hp' : (s.withSchedule turns).program = .wait :: rest := hp
  rw [step_of_host_turn hs, hostTurn, hp']
  simp only [performStmt, readResponse_in_reset hr', waitEnds]
  rfl

/-- Settles O55: the polls while BUSY = 1, then the completion and the poll that ends the WAIT; and a poll in reset. -/
theorem waitEndsAfterTheCompletion : Obligations.WaitEndsAfterTheCompletion := by
  refine ⟨fun k s rest turns hb hr hp hs => stepsTo_polls k hb hr hp hs, fun k s rest turns hb hr hp hs => ?_,
    fun s rest turns hr hp hs => step_wait_in_reset hr hp hs⟩
  have hu := exec_eq (pendingInstr s.block) s
  refine ⟨_, hu, by rw [getLsbD_busRead_status_busy, exec_busy hu], ?_⟩
  obtain ⟨turns', hpolls, hend⟩ : ∃ turns', s.schedule = List.replicate k .host ++ turns'
      ∧ (turns' = .engine :: .host :: turns ∨ (turns' = [] ∧ turns = [])) := by
    rcases hs with hs | ⟨hs, hturns⟩
    · exact ⟨_, hs, .inl rfl⟩
    · exact ⟨[], by rw [hs, List.append_nil], .inr ⟨rfl, hturns⟩⟩
  have hlast := stepsTo_completion_then_poll (s := { s with
    schedule := turns'
    responses := List.replicate k (.readData (busRead s.block 0x010)) ++ s.responses }) hb hr hp hend (exec_eq _ _)
  exact (stepsTo_polls k hb hr hp hpolls).trans hlast

end Sys2Proof.Machine
end

section
/-! PROOFS. What a command writes and what it reads: the frames of DECODE, HMAC, TRUNC, COMPARE, GENERATE and VERIFY, and
that the single-unit commands depend on nothing but their operands. -/

namespace Sys2Proof.Machine

/-! ## Frames (R102) -/

theorem decode_frame {s t : State} (h : exec .decode s = .next t) :
    t = s.withBlock { s.block with
      key := t.block.key, keyLen := t.block.keyLen
      error := t.block.error, busy := false, done := true, err := t.block.err } := by
  obtain rfl := exec_next h
  rcases decodeBody_cases s.block with ⟨-, e⟩ | ⟨-, -, e⟩ | ⟨k, -, -, e⟩ <;> rw [bodyOf, e] <;> rfl

theorem hmac_frame {s t : State} (h : exec .hmac s = .next t) :
    t = s.withBlock { s.block with
      digest := t.block.digest, digestLen := t.block.digestLen
      error := t.block.error, busy := false, done := true, err := t.block.err } := by
  obtain rfl := exec_next h
  rcases hmacBody_cases s.block with ⟨-, e⟩ | ⟨-, -, e⟩ | ⟨a, -, -, e⟩ <;> rw [bodyOf, e] <;> rfl

theorem trunc_frame {s t : State} (h : exec .trunc s = .next t) :
    t = s.withBlock { s.block with
      truncOff := t.block.truncOff, truncVal := t.block.truncVal, codeBin := t.block.codeBin
      codeLen := t.block.codeLen, codeAscii := t.block.codeAscii
      error := t.block.error, busy := false, done := true, err := t.block.err } := by
  obtain rfl := exec_next h
  rcases truncBody_cases s.block with ⟨-, e⟩ | ⟨-, -, e⟩ | ⟨-, -, e⟩ <;> rw [bodyOf, e] <;> rfl

theorem compare_frame {s t : State} (h : exec .compare s = .next t) :
    t = s.withBlock { s.block with
      verdict := t.block.verdict, error := 0, busy := false, done := true, err := false } := by
  obtain rfl := exec_next h
  rfl

/-- Settles O23, command by command. -/
theorem frameOfTheUnitCommands : Obligations.FrameOfTheUnitCommands :=
  fun _ _ => ⟨decode_frame, hmac_frame, trunc_frame, compare_frame⟩

/-- `c` is `b` up to the completion fields and the results of GENERATE and VERIFY, and at KSRC = 0 also in its key. -/
def GenerateFrame (b c : Block) : Prop :=
  c = { b with
    key := c.key, keyLen := c.keyLen, digest := c.digest, digestLen := c.digestLen
    truncOff := c.truncOff, truncVal := c.truncVal, codeBin := c.codeBin
    codeLen := c.codeLen, codeAscii := c.codeAscii, verdict := c.verdict
    error := c.error, busy := c.busy, done := c.done, err := c.err }
  ∧ (b.ctrlKsrc = false → SameKey b c)

theorem GenerateFrame.complete {b c : Block} (h : GenerateFrame b c) : GenerateFrame b (complete c) := by
  obtain ⟨hframe, hkey⟩ := h
  exact ⟨by rw [hframe]; rfl, hkey⟩

theorem GenerateFrame.writeVerdict {b c : Block} (h : GenerateFrame b c) : GenerateFrame b (writeVerdict c) := by
  obtain ⟨hframe, hkey⟩ := h
  exact ⟨by rw [hframe]; rfl, hkey⟩

theorem generateFrame_raise (e : CommandError) (b : Block) : GenerateFrame b (raise e b) :=
  ⟨rfl, fun _ => ⟨rfl, rfl⟩⟩

theorem generateFrame_storeKey (key : List Byte) (b : Block) : GenerateFrame b (storeKey key b) := by
  unfold storeKey
  split
  · next hk => exact ⟨rfl, fun h => by simp [hk] at h⟩
  · exact ⟨rfl, fun _ => ⟨rfl, rfl⟩⟩

theorem generateFrame_generateResults (key : List Byte) (a : Alg) (b : Block) :
    GenerateFrame b (generateResults key a b) := by
  obtain ⟨hframe, hkey⟩ := generateFrame_storeKey key b
  exact ⟨by rw [generateResults, hframe]; rfl, hkey⟩

/-- GENERATE and VERIFY keep to their frame, with or without an error. -/
theorem generateFrame_of_exec {i : Instr} {s t : State} (hi : i = .generate ∨ i = .verify)
    (h : exec i s = .next t) : GenerateFrame s.block t.block := by
  rcases exec_cases h with ⟨c, hc, rfl⟩ | ⟨e, -, rfl⟩
  · rcases bodyOf_ok hc with ⟨rfl, -⟩ | ⟨rfl, -⟩ | ⟨rfl, -⟩ | ⟨rfl, -⟩
      | ⟨-, key, a, -, -, -, rfl⟩ | ⟨-, key, a, -, -, -, rfl⟩ | ⟨rfl, -⟩
    case inr.inr.inr.inr.inl => exact (generateFrame_generateResults key a s.block).complete
    case inr.inr.inr.inr.inr.inl => exact (generateFrame_generateResults key a s.block).writeVerdict.complete
    all_goals simp at hi
  · exact generateFrame_raise e s.block

/-- The frame of a completion of GENERATE or VERIFY, with the choice of KSRC written out. -/
theorem GenerateFrame.completed {b c : Block} (h : GenerateFrame b c) (hbusy : c.busy = false)
    (hdone : c.done = true) :
    c = { b with
      key := if b.ctrlKsrc then c.key else b.key
      keyLen := if b.ctrlKsrc then c.keyLen else b.keyLen
      digest := c.digest, digestLen := c.digestLen
      truncOff := c.truncOff, truncVal := c.truncVal, codeBin := c.codeBin
      codeLen := c.codeLen, codeAscii := c.codeAscii, verdict := c.verdict
      error := c.error, busy := false, done := true, err := c.err } := by
  obtain ⟨hframe, hkey⟩ := h
  have hsame : (if b.ctrlKsrc then c.key else b.key) = c.key
      ∧ (if b.ctrlKsrc then c.keyLen else b.keyLen) = c.keyLen := by
    cases hk : b.ctrlKsrc with
    | true => exact ⟨rfl, rfl⟩
    | false =>
      obtain ⟨hlen, hbytes⟩ := hkey hk
      exact ⟨hbytes, hlen⟩
  rw [hsame.1, hsame.2]
  rw [hbusy, hdone] at hframe
  exact hframe

theorem exec_done {i : Instr} {s t : State} (h : exec i s = .next t) : t.block.done = true := by
  rcases exec_cases h with ⟨c, -, rfl⟩ | ⟨e, -, rfl⟩ <;> rfl

/-- A command moves nothing outside the block. -/
theorem exec_eq_withBlock {i : Instr} {s t : State} (h : exec i s = .next t) : t = s.withBlock t.block := by
  obtain rfl := exec_next h
  rfl

/-- GENERATE makes no comparison. -/
theorem generate_verdict {s t : State} (h : exec .generate s = .next t) : t.block.verdict = s.block.verdict := by
  rcases exec_cases h with ⟨c, hc, rfl⟩ | ⟨e, -, rfl⟩
  · rcases generateBody_cases s.block with ⟨_, -, e⟩ | ⟨_, -, -, e⟩ | ⟨_, -, -, -, e⟩ | ⟨key, a, -, -, -, e⟩ <;>
      rw [bodyOf, e] at hc <;> cases hc
    simp [generateResults]
  · rfl

/-- Settles O24: the shared frame, and VERDICT kept by GENERATE. -/
theorem frameOfTheCompositeCommands : Obligations.FrameOfTheCompositeCommands := by
  refine fun s t => ⟨fun h => ?generate, fun h => ?verify⟩
  case generate =>
    have hframe := (generateFrame_of_exec (.inl rfl) h).completed (exec_busy h) (exec_done h)
    rw [generate_verdict h] at hframe
    exact (exec_eq_withBlock h).trans (congrArg s.withBlock hframe)
  case verify =>
    have hframe := (generateFrame_of_exec (.inr rfl) h).completed (exec_busy h) (exec_done h)
    exact (exec_eq_withBlock h).trans (congrArg s.withBlock hframe)

/-! ## Operands (R102) -/

/-- Two bodies answer alike: the same error, or blocks whose completions `R` relates. -/
def SameAnswer (R : Block → Block → Prop) : Except CommandError Block → Except CommandError Block → Prop
  | .ok b, .ok c => R (complete b) (complete c)
  | .error e, .error f => e = f
  | .ok _, .error _ => False
  | .error _, .ok _ => False

/-- Commands whose bodies answer alike report the same error and, without one, leave related blocks. -/
theorem commit_of_sameAnswer {R : Block → Block → Prop} (b c : Block) {p q : Except CommandError Block}
    (h : SameAnswer R p q) :
    (commit b p).error = (commit c q).error ∧ ((commit b p).error = 0 → R (commit b p) (commit c q)) := by
  match p, q, h with
  | .ok _, .ok _, h => exact ⟨rfl, fun _ => h⟩
  | .error e, .error _, rfl => exact ⟨rfl, fun hzero => absurd hzero (errorCode_ne_zero e)⟩

theorem exec_of_sameAnswer {R : Block → Block → Prop} {i : Instr} {s u t v : State}
    (h : SameAnswer R (bodyOf i s.block) (bodyOf i u.block)) (ht : exec i s = .next t) (hv : exec i u = .next v) :
    t.block.error = v.block.error ∧ (t.block.error = 0 → R t.block v.block) := by
  obtain rfl := exec_next ht
  obtain rfl := exec_next hv
  exact commit_of_sameAnswer s.block u.block h

theorem decodeBody_sameAnswer {b c : Block} (h : SameDecodeOperands b c) :
    SameAnswer SameKey (decodeBody b) (decodeBody c) := by
  obtain ⟨hlen, hchars⟩ := h
  unfold decodeBody
  rw [hlen, hchars]
  split
  · rfl
  · cases b32decode (secretChars c) with
    | none => rfl
    | some key => exact ⟨rfl, rfl⟩

theorem counterMessage_congr {b c : Block} (hhi : b.counterHi = c.counterHi) (hlo : b.counterLo = c.counterLo) :
    counterMessage b = counterMessage c := by
  rw [counterMessage, counter, hhi, hlo, counterMessage, counter]

theorem hmacBody_sameAnswer {b c : Block} (h : SameHmacOperands b c) :
    SameAnswer SameDigest (hmacBody b) (hmacBody c) := by
  obtain ⟨halg, hlen, hkey, hhi, hlo⟩ := h
  unfold hmacBody
  rw [halg, hlen, hkey, counterMessage_congr hhi hlo]
  split
  · rfl
  · cases algOf c.ctrlAlg with
    | none => rfl
    | some a => exact ⟨rfl, rfl⟩

theorem truncBody_sameAnswer {b c : Block} (h : SameTruncOperands b c) :
    SameAnswer SameCode (truncBody b) (truncBody c) := by
  obtain ⟨hdigits, hlen, hdigest⟩ := h
  unfold truncBody
  rw [hdigits, hlen, hdigest]
  split
  · split
    · rfl
    · exact ⟨rfl, rfl, rfl, rfl, rfl⟩
  · rfl

/-- The comparison reads the candidate, the code and their lengths (R240). -/
theorem codeMatches_congr {b c : Block} (hcandLen : b.candLen = c.candLen) (hcand : b.cand = c.cand)
    (hcodeLen : b.codeLen = c.codeLen) (hcodeAscii : b.codeAscii = c.codeAscii) : codeMatches b = codeMatches c := by
  unfold codeMatches
  rw [hcandLen, hcand, hcodeLen, hcodeAscii]

theorem compare_verdict {s t : State} (h : exec .compare s = .next t) :
    t.block.verdict = if codeMatches s.block then 1#2 else 2#2 := by
  obtain rfl := exec_next h
  rfl

/-- Settles O25: each body answers alike on equal operands. -/
theorem unitCommandsReadOnlyTheirOperands : Obligations.UnitCommandsReadOnlyTheirOperands := by
  refine fun s u t v => ⟨fun h ht hv => exec_of_sameAnswer (i := .decode) (decodeBody_sameAnswer h) ht hv,
    fun h ht hv => exec_of_sameAnswer (i := .hmac) (hmacBody_sameAnswer h) ht hv,
    fun h ht hv => exec_of_sameAnswer (i := .trunc) (truncBody_sameAnswer h) ht hv,
    fun hcandLen hcand hcodeLen hcodeAscii ht hv => ?_⟩
  rw [compare_verdict ht, compare_verdict hv, codeMatches_congr hcandLen hcand hcodeLen hcodeAscii]

end Sys2Proof.Machine
end

section
/-! PROOFS. The base32 family: the alphabet, the decoder as a regrouping of bits, the errors and the result of
DECODE, and that DECODE undoes the encoder. -/

namespace Sys2Proof.Machine

/-! ## The alphabet (R130) -/

theorem b32val_upper {v : Nat} (h : v < 26) : b32val (BitVec.ofNat 8 (0x41 + v)) = some v := by
  have hc : (BitVec.ofNat 8 (0x41 + v)).toNat = 0x41 + v := by rw [BitVec.toNat_ofNat]; omega
  rw [b32val, hc, if_pos (by omega), Nat.add_sub_cancel_left]

theorem b32val_lower {v : Nat} (h : v < 26) : b32val (BitVec.ofNat 8 (0x61 + v)) = some v := by
  have hc : (BitVec.ofNat 8 (0x61 + v)).toNat = 0x61 + v := by rw [BitVec.toNat_ofNat]; omega
  rw [b32val, hc, if_neg (by omega), if_pos (by omega), Nat.add_sub_cancel_left]

theorem b32val_digit {v : Nat} (hlow : 26 ≤ v) (h : v < 32) : b32val (BitVec.ofNat 8 (0x32 + (v - 26))) = some v := by
  have hc : (BitVec.ofNat 8 (0x32 + (v - 26))).toNat = 0x32 + (v - 26) := by rw [BitVec.toNat_ofNat]; omega
  rw [b32val, hc, if_neg (by omega), if_neg (by omega), if_pos (by omega), Nat.add_sub_cancel_left,
    Nat.sub_add_cancel hlow]

/-- Settles O27, range by range. -/
theorem alphabetValuesAreThePositions : Obligations.AlphabetValuesAreThePositions := by
  refine ⟨fun v hv => ⟨b32val_upper hv, b32val_lower hv⟩, fun v hlow hv => b32val_digit hlow hv,
    fun c hupper hlower hdigit => ?_⟩
  rw [b32val, if_neg hupper, if_neg hlower, if_neg hdigit]

/-- The encoder's characters have their values. -/
theorem b32val_b32char {v : Nat} (h : v < 32) : b32val (b32char v) = some v := by
  unfold b32char
  split
  · exact b32val_upper ‹_›
  · exact b32val_digit (by omega) h

/-- The charset check passes exactly with the values of all characters. -/
theorem b32symbols_eq_some_iff {s : List Byte} {vs : List Nat} :
    b32symbols s = some vs ↔ s.map b32val = vs.map some := by
  induction s generalizing vs with
  | nil => cases vs <;> simp [b32symbols]
  | cons c cs ih =>
    rw [b32symbols]
    cases hc : b32val c with
    | none => cases vs <;> simp [hc]
    | some v =>
      cases hs : b32symbols cs with
      | none => cases vs <;> simp [← ih, hs]
      | some ws => cases vs <;> simp [← ih, hs, hc]

theorem b32decode_eq_none_iff {s : List Byte} : b32decode s = none ↔ ∃ c ∈ s, b32val c = none := by
  rw [b32decode, Option.map_eq_none_iff, b32symbols_eq_none]

/-! ## Bits, most significant first -/

/-- The low `n` bits of a number, most significant first: the common form of `byteBits` and `symbolBits`. -/
def msbBits (n v : Nat) : List Bool := (List.range n).map fun i => v.testBit (n - 1 - i)

@[simp] theorem length_msbBits (n v : Nat) : (msbBits n v).length = n := by simp [msbBits]

@[simp] theorem length_byteBits (c : Byte) : (byteBits c).length = 8 := length_msbBits 8 c.toNat

theorem symbolBits_eq_flatMap (vs : List Nat) : symbolBits vs = vs.flatMap (msbBits 5) := rfl

/-- Only the low `n` bits matter. -/
theorem msbBits_congr {n v w : Nat} (h : ∀ i < n, v.testBit i = w.testBit i) : msbBits n v = msbBits n w :=
  List.map_congr_left fun i hi => h _ (by rw [List.mem_range] at hi; omega)

theorem msbBits_mod (n v : Nat) : msbBits n (v % 2 ^ n) = msbBits n v :=
  msbBits_congr fun i hi => by simp [Nat.testBit_mod_two_pow, hi]

theorem byteBits_ofNat (v : Nat) : byteBits (BitVec.ofNat 8 v) = msbBits 8 v := msbBits_mod 8 v

/-- The high bits stand before the low ones. -/
theorem msbBits_add (m n v : Nat) : msbBits (m + n) v = msbBits m (v >>> n) ++ msbBits n v := by
  simp only [msbBits, List.range_add, List.map_append, List.map_map, Nat.testBit_shiftRight]
  congr 1 <;> refine List.map_congr_left fun i hi => ?_
  · rw [List.mem_range] at hi
    congr 1
    omega
  · rw [List.mem_range] at hi
    change v.testBit (m + n - 1 - (m + i)) = _
    congr 1
    omega

theorem take_msbBits_append (m n v : Nat) (bits : List Bool) :
    (msbBits m v ++ bits).take (m + n) = msbBits m v ++ bits.take n := by
  have h := List.take_length_add_append (l₁ := msbBits m v) (l₂ := bits) n
  rwa [length_msbBits] at h

/-- Shifting a value in below others appends its bits. -/
theorem msbBits_shiftLeft_or (m acc : Nat) {n v : Nat} (hv : v < 2 ^ n) :
    msbBits (m + n) (acc <<< n ||| v) = msbBits m acc ++ msbBits n v := by
  have hlow : ∀ i < n, (acc <<< n ||| v).testBit i = v.testBit i := fun i hi => by
    simp [Nat.testBit_shiftLeft, Nat.not_le.mpr hi]
  have hhigh : (acc <<< n ||| v) >>> n = acc := by
    rw [Nat.shiftRight_or_distrib, Nat.shiftLeft_shiftRight, Nat.shiftRight_eq_zero v n hv, Nat.or_zero]
  rw [msbBits_add, hhigh, msbBits_congr hlow]

/-! ## The decoder (R131 to R133) -/

theorem length_b32emit (vs : List Nat) (acc : Nat) {nbits : Nat} (h : nbits < 8) :
    (b32emit acc nbits vs).length = (nbits + 5 * vs.length) / 8 := by
  induction vs generalizing acc nbits with
  | nil => simp [b32emit]; omega
  | cons v vs ih =>
    rw [b32emit]
    split
    · rw [List.length_cons, ih _ (by omega), List.length_cons]
      omega
    · rw [ih _ (by omega), List.length_cons]
      congr 1
      omega

/-- The bytes that leave the rolling buffer are the whole bytes of its bits followed by those of the symbols. -/
theorem b32emit_bits (vs : List Nat) (acc : Nat) {nbits : Nat} (h : nbits < 8) (hvs : ∀ v ∈ vs, v < 32) :
    (b32emit acc nbits vs).flatMap byteBits =
      (msbBits nbits acc ++ symbolBits vs).take (8 * ((nbits + 5 * vs.length) / 8)) := by
  induction vs generalizing acc nbits with
  | nil =>
    have hzero : (nbits + 5 * ([] : List Nat).length) / 8 = 0 := by simpa using h
    rw [hzero]
    rfl
  | cons v vs ih =>
    obtain ⟨hv, hvs⟩ := List.forall_mem_cons.mp hvs
    have hbits : msbBits nbits acc ++ symbolBits (v :: vs) =
        msbBits (nbits + 5) (acc <<< 5 ||| v) ++ symbolBits vs := by
      rw [msbBits_shiftLeft_or nbits acc hv, List.append_assoc]
      rfl
    rw [hbits, List.length_cons, b32emit]
    split
    next hfull =>
      obtain ⟨r, hr⟩ : ∃ r, nbits + 5 = 8 + r := ⟨nbits + 5 - 8, by omega⟩
      have hcount : 8 * ((nbits + 5 * (vs.length + 1)) / 8) = 8 + 8 * ((r + 5 * vs.length) / 8) := by omega
      rw [hcount, hr, Nat.add_sub_cancel_left, List.flatMap_cons, byteBits_ofNat, ih _ (by omega) hvs, msbBits_mod,
        msbBits_add, List.append_assoc, take_msbBits_append]
    next =>
      have hcount : nbits + 5 * (vs.length + 1) = nbits + 5 + 5 * vs.length := by omega
      rw [hcount, ih _ (by omega) hvs]

theorem b32emit_zero_bits {vs : List Nat} (hvs : ∀ v ∈ vs, v < 32) :
    (b32emit 0 0 vs).flatMap byteBits = (symbolBits vs).take (8 * (5 * vs.length / 8)) := by
  rw [b32emit_bits vs 0 (by decide) hvs, Nat.zero_add]
  rfl

/-- What the decoder answers: the values of the characters, emitted. -/
theorem b32decode_eq_some {s k : List Byte} (h : b32decode s = some k) :
    k = b32emit 0 0 (s.map fun c => (b32val c).getD 0) ∧ ∀ v ∈ s.map (fun c => (b32val c).getD 0), v < 32 := by
  obtain ⟨vs, hvs, rfl⟩ := Option.map_eq_some_iff.mp h
  have hmap := b32symbols_eq_some_iff.mp hvs
  have hvals : s.map (fun c => (b32val c).getD 0) = vs := by
    simpa [Function.comp_def] using congrArg (List.map fun o => o.getD 0) hmap
  rw [hvals]
  refine ⟨rfl, fun v hv => ?_⟩
  have hmem : some v ∈ s.map b32val := hmap ▸ List.mem_map_of_mem hv
  obtain ⟨c, -, hc⟩ := List.mem_map.mp hmem
  exact b32val_lt hc

theorem length_of_b32decode {s k : List Byte} (h : b32decode s = some k) : k.length = 5 * s.length / 8 := by
  rw [(b32decode_eq_some h).1, length_b32emit _ 0 (by decide), Nat.zero_add, List.length_map]

/-- Settles O28: the rolling buffer keeps the order of the bits. -/
theorem decoderKeepsTheBitsInOrder : Obligations.DecoderKeepsTheBitsInOrder := by
  refine ⟨fun s => b32decode_eq_none_iff, fun s k hk => ⟨length_of_b32decode hk, ?_⟩,
    fun vs hvs => b32emit_zero_bits hvs⟩
  obtain ⟨rfl, hlt⟩ := b32decode_eq_some hk
  rw [b32emit_zero_bits hlt, List.length_map]

/-! ## The command (R134) -/

theorem exec_decode_error {s : State} {e : CommandError} (h : decodeBody s.block = .error e) :
    exec .decode s = .next (s.withBlock (raise e s.block)) := by
  rw [exec_eq, bodyOf, h, commit_error]

theorem exec_decode_ok {s : State} {k : List Byte} (hlen : s.block.secretLen.toNat ≤ 256)
    (hk : b32decode (secretChars s.block) = some k) :
    exec .decode s = .next (s.withBlock (complete (writeKey k s.block))) := by
  have hbody : decodeBody s.block = .ok (writeKey k s.block) := by
    rw [decodeBody, if_neg (Nat.not_lt.mpr hlen), hk]
  rw [exec_eq, bodyOf, hbody, commit_ok]

/-- The characters of the secret, byte by byte. -/
theorem secretChars_eq_map {b : Block} (h : b.secretLen.toNat ≤ 256) :
    secretChars b = (List.range b.secretLen.toNat).map b.secret.byte := by
  apply List.ext_getElem (by simpa [secretChars] using h)
  intro i _ hi
  rw [List.length_map, List.length_range] at hi
  simp [secretChars, slice, Buf.byte_eq_getElem b.secret i (by omega)]

theorem b32decode_secretChars_eq_none_iff {b : Block} (h : b.secretLen.toNat ≤ 256) :
    b32decode (secretChars b) = none ↔ ∃ i < b.secretLen.toNat, b32val (b.secret.byte i) = none := by
  simp [b32decode_eq_none_iff, secretChars_eq_map h]

/-- Settles O30, case by case of the body. -/
theorem decodeCommandResult : Obligations.DecodeCommandResult := by
  refine fun s => ⟨fun hlong => ?long, fun hlen hbad => ?bad, fun hlen hgood => ?good⟩
  case long => exact exec_decode_error (if_pos hlong)
  case bad =>
    have hnone := (b32decode_secretChars_eq_none_iff hlen).mpr hbad
    have hbody : decodeBody s.block = .error .invalidCharset := by
      rw [decodeBody, if_neg (Nat.not_lt.mpr hlen), hnone]
    exact exec_decode_error hbody
  case good =>
    have hsome : b32decode (secretChars s.block) ≠ none := by
      rw [Ne, b32decode_secretChars_eq_none_iff hlen]
      rintro ⟨i, hi, hbad⟩
      exact hgood i hi hbad
    obtain ⟨k, hk⟩ := Option.ne_none_iff_exists'.mp hsome
    have hklen := length_of_b32decode hk
    rw [secretChars_eq_map hlen, List.length_map, List.length_range] at hklen
    refine ⟨k, hk, hklen, ?_⟩
    rw [exec_decode_ok hlen hk, ← hklen]
    rfl

/-! ## The encoder of R135 -/

theorem bitsValue_concat (bits : List Bool) (b : Bool) : bitsValue (bits ++ [b]) = 2 * bitsValue bits + b.toNat := by
  simp [bitsValue]

theorem bitsValue_lt (bits : List Bool) : bitsValue bits < 2 ^ bits.length := by
  induction bits using List.reverseRecOn with
  | nil => decide
  | append_singleton bits b ih =>
    have hb := b.toNat_lt
    rw [bitsValue_concat, List.length_append, List.length_singleton, pow_succ]
    omega

/-- Reading a number and writing its bits again is the identity. -/
theorem msbBits_bitsValue (bits : List Bool) : msbBits bits.length (bitsValue bits) = bits := by
  induction bits using List.reverseRecOn with
  | nil => rfl
  | append_singleton bits b ih =>
    have hhigh : (2 * bitsValue bits + b.toNat) >>> 1 = bitsValue bits := by
      have hb := b.toNat_lt
      rw [Nat.shiftRight_one]
      omega
    have hlow : msbBits 1 (2 * bitsValue bits + b.toNat) = [b] := by
      cases b <;> simp [msbBits]
    rw [List.length_append, List.length_singleton, bitsValue_concat, msbBits_add, hhigh, ih, hlow]

theorem byteBits_injective : Function.Injective byteBits := by
  intro c d h
  refine BitVec.eq_of_getLsbD_eq fun i hi => ?_
  have hbit := List.map_inj_left.mp h (7 - i) (List.mem_range.mpr (by omega))
  rwa [Nat.sub_sub_self (by omega)] at hbit

/-- A string is known by its bits. -/
theorem flatMap_byteBits_injective : Function.Injective fun s : List Byte => s.flatMap byteBits := by
  intro s t h
  induction s generalizing t with
  | nil => cases t with
    | nil => rfl
    | cons d t => cases h
  | cons c s ih => cases t with
    | nil => cases h
    | cons d t =>
      obtain ⟨hhead, htail⟩ := List.append_inj h (by rw [length_byteBits, length_byteBits])
      rw [byteBits_injective hhead, ih htail]

/-- Group `k` of five bits of the encoder, filled on the right with zero bits. -/
def bitGroup (bits : List Bool) (k : Nat) : List Bool := (List.range 5).map fun j => bits.getD (5 * k + j) false

/-- The values that the encoder writes as characters. -/
def encodeValues (s : List Byte) : List Nat :=
  (List.range ((8 * s.length + 4) / 5)).map fun k => bitsValue (bitGroup (s.flatMap byteBits) k)

theorem b32encode_eq_map (s : List Byte) : b32encode s = (encodeValues s).map b32char := by
  rw [encodeValues, List.map_map]
  rfl

theorem length_b32encode (s : List Byte) : (b32encode s).length = (8 * s.length + 4) / 5 := by simp [b32encode]

theorem length_bitGroup (bits : List Bool) (k : Nat) : (bitGroup bits k).length = 5 := by simp [bitGroup]

theorem encodeValues_lt {s : List Byte} {v : Nat} (h : v ∈ encodeValues s) : v < 32 := by
  obtain ⟨k, -, rfl⟩ := List.mem_map.mp h
  have := bitsValue_lt (bitGroup (s.flatMap byteBits) k)
  rwa [length_bitGroup] at this

/-- The groups of five, one after the other, are the bits with zeros after them. -/
theorem flatMap_bitGroup (bits : List Bool) (n : Nat) :
    (List.range n).flatMap (bitGroup bits) = (List.range (5 * n)).map fun i => bits.getD i false := by
  induction n with
  | zero => rfl
  | succ n ih =>
    rw [List.range_succ, List.flatMap_append, ih, Nat.mul_succ, List.range_add, List.map_append, List.map_map]
    simp [bitGroup, Function.comp_def]

theorem symbolBits_encodeValues (s : List Byte) :
    symbolBits (encodeValues s) =
      (List.range (5 * ((8 * s.length + 4) / 5))).map fun i => (s.flatMap byteBits).getD i false := by
  rw [← flatMap_bitGroup, symbolBits_eq_flatMap, encodeValues, List.flatMap_map]
  congr 1
  funext k
  have h := msbBits_bitsValue (bitGroup (s.flatMap byteBits) k)
  rwa [length_bitGroup] at h

theorem map_getD_range {α : Type} (l : List α) (d : α) : (List.range l.length).map (fun i => l.getD i d) = l :=
  List.ext_getElem (by simp) fun i _ hi => by rw [List.getElem_map, List.getElem_range, List.getD_eq_getElem _ _ hi]

theorem length_flatMap_byteBits (s : List Byte) : (s.flatMap byteBits).length = 8 * s.length := by
  simp [List.length_flatMap]; omega

/-- The decoder undoes the encoder: the zero bits of the last group are the ones discarded. -/
theorem b32decode_b32encode (s : List Byte) : b32decode (b32encode s) = some s := by
  have hsymbols : b32symbols (b32encode s) = some (encodeValues s) := by
    rw [b32symbols_eq_some_iff, b32encode_eq_map, List.map_map]
    exact List.map_congr_left fun v hv => b32val_b32char (encodeValues_lt hv)
  rw [b32decode, hsymbols, Option.map_some]
  congr 1
  apply flatMap_byteBits_injective
  have hcount : 5 * (encodeValues s).length / 8 = s.length := by
    simp only [encodeValues, List.length_map, List.length_range]
    omega
  change (b32emit 0 0 (encodeValues s)).flatMap byteBits = s.flatMap byteBits
  rw [b32emit_zero_bits fun v hv => encodeValues_lt hv, hcount, symbolBits_encodeValues,
    ← List.map_take, List.take_range, Nat.min_eq_left (by omega), ← length_flatMap_byteBits, map_getD_range]

/-- Settles O29: DECODE writes what the decoder answers, which is the string. -/
theorem decodeInvertsEncode : Obligations.DecodeInvertsEncode := by
  intro s bytes hbytes hlen hsecret
  rw [length_b32encode] at hlen
  have hchars : secretChars s.block = b32encode bytes := hsecret
  have hdecode : b32decode (secretChars s.block) = some bytes := hchars ▸ b32decode_b32encode bytes
  refine ⟨_, exec_decode_ok (by omega) hdecode, rfl, ?_, slice_padTo hbytes⟩
  change (BitVec.ofNat 32 bytes.length).toNat = bytes.length
  rw [BitVec.toNat_ofNat]
  omega

end Sys2Proof.Machine
end

section
/-! PROOFS. The counter: the bytes of its message, and the two writes with which the host presents it. -/

namespace Sys2Proof.Machine

/-! ## The counter packer (R150) -/

/-- Two encodings in a row encode the integer that they write together. -/
theorem be_append {m n hi lo : Nat} (hhi : hi < 256 ^ m) (hlo : lo < 256 ^ n) :
    be (m + n) (hi * 256 ^ n + lo) = be m hi ++ be n lo := by
  have hint : intBe (be m hi ++ be n lo) = hi * 256 ^ n + lo := by
    rw [intBe_append, intBe_be m hi hhi, intBe_be n lo hlo, length_be]
  have hlength : (be m hi ++ be n lo).length = m + n := by rw [List.length_append, length_be, length_be]
  rw [← hint, ← hlength, be_intBe]

theorem toNat_getD_be (v : Nat) {n i : Nat} (h : i < n) :
    ((be n v).getD i 0#8).toNat = (v >>> (8 * (n - 1 - i))) &&& 0xFF := by
  rw [List.getD_eq_getElem _ _ (by rwa [length_be]), be_getElem, BitVec.toNat_ofNat]
  exact (Nat.and_two_pow_sub_one_eq_mod _ 8).symm

/-- Settles O31: the message is the encodings of the two registers in a row, which is that of the one integer. -/
theorem counterMessageIsBigEndian : Obligations.CounterMessageIsBigEndian := by
  intro b
  have hhi := b.counterHi.isLt
  have hlo := b.counterLo.isLt
  have hcounter : counter b < 256 ^ 8 := by rw [counter]; omega
  exact ⟨length_be 8 _, fun i hi => toNat_getD_be _ hi, be_append (m := 4) (n := 4) hhi hlo, intBe_be 8 _ hcounter⟩

/-! ## Presenting the counter (R111, R152) -/

theorem exists_counter_words {c : Nat} (hc : c < 2 ^ 64) : ∃ hi lo : Word, c = hi.toNat * 2 ^ 32 + lo.toNat :=
  ⟨BitVec.ofNat 32 (c / 2 ^ 32), BitVec.ofNat 32 c, by rw [BitVec.toNat_ofNat, BitVec.toNat_ofNat]; omega⟩

/-- `W COUNTER, C` writes the two words of C, the high one first. -/
theorem counterStmts_words (hi lo : Word) :
    counterStmts (hi.toNat * 2 ^ 32 + lo.toNat) = [writeStmt 0x020 hi, writeStmt 0x024 lo] := by
  have hhigh : BitVec.ofNat 32 ((hi.toNat * 2 ^ 32 + lo.toNat) >>> 32) = hi := by
    apply BitVec.eq_of_toNat_eq
    rw [BitVec.toNat_ofNat, Nat.shiftRight_eq_div_pow]
    omega
  have hlow : BitVec.ofNat 32 ((hi.toNat * 2 ^ 32 + lo.toNat) &&& 0xFFFFFFFF) = lo := by
    apply BitVec.eq_of_toNat_eq
    rw [BitVec.toNat_ofNat, Nat.and_two_pow_sub_one_eq_mod _ 32]
    omega
  rw [counterStmts, hhigh, hlow]

theorem busWrite_counterHi {b : Block} (hb : b.busy = false) (v : Word) :
    busWrite 0x020 v b = { b with counterHi := v } := busWrite_idle hb 0x020 v

theorem busWrite_counterLo {b : Block} (hb : b.busy = false) (v : Word) :
    busWrite 0x024 v b = { b with counterLo := v } := busWrite_idle hb 0x024 v

theorem wordOffset_counterHi : WordOffset 0x020 := by unfold WordOffset; decide

theorem wordOffset_counterLo : WordOffset 0x024 := by unfold WordOffset; decide

/-- A write step of the host, with the block that the bus write leaves. -/
theorem step_write_of_busWrite {s : State} {off : Nat} {v : Word} {rest : List HostStmt} {turns : List Turn} {b : Block}
    (hw : WordOffset off) (h : s.HostAt (writeStmt off v) rest turns) (hb : busWrite off v s.block = b) :
    step s = .next { s with
      block := b
      program := rest
      schedule := turns
      responses := .writeDone :: s.responses } := by
  rw [step_write hw h, hb]

/-- The two writes of the counter's words, on an idle machine, run to the program's end and do just that. -/
theorem stepsTo_counter_writes {s : State} {hi lo : Word} (hb : s.block.busy = false) (hr : s.resetAsserted = false)
    (hs : s.schedule = []) (hp : s.program = [writeStmt 0x020 hi, writeStmt 0x024 lo]) :
    StepsTo 2 s { s with
      block := { s.block with counterHi := hi, counterLo := lo }
      program := []
      schedule := []
      responses := .writeDone :: .writeDone :: s.responses } :=
  ⟨_, step_write_of_busWrite wordOffset_counterHi ⟨hr, hp, .inr ⟨hs, rfl, hb⟩⟩ (busWrite_counterHi hb hi),
    _, step_write_of_busWrite wordOffset_counterLo ⟨hr, rfl, .inr ⟨rfl, rfl, hb⟩⟩
      (busWrite_counterLo (by exact hb) lo), rfl⟩

/-- A table of examples holds where each row's integer is that of its two words and its message the encoding of it. -/
theorem counter_examples_hold {rows : List (Nat × Word × Word × List Byte)}
    (h : ∀ row ∈ rows, row.1 = row.2.1.toNat * 2 ^ 32 + row.2.2.1.toNat ∧ row.2.2.2 = be 8 row.1)
    (c : Nat) (hi lo : Word) (msg : List Byte) (hrow : (c, hi, lo, msg) ∈ rows) :
    counterStmts c = [writeStmt 0x020 hi, writeStmt 0x024 lo]
      ∧ ∀ b : Block, b.counterHi = hi → b.counterLo = lo → counter b = c ∧ counterMessage b = msg := by
  obtain ⟨hc, hmsg⟩ : c = hi.toNat * 2 ^ 32 + lo.toNat ∧ msg = be 8 c := h _ hrow
  refine ⟨hc ▸ counterStmts_words hi lo, fun b hhi hlo => ?_⟩
  have hcounter : counter b = c := by rw [counter, hhi, hlo, hc]
  exact ⟨hcounter, by rw [counterMessage, hcounter, hmsg]⟩

/-- Settles O56: an integer below 2^64 is presented as its two words, each write stores one of them and nothing else,
and the rows of R152 are integers with their words and encodings. -/
theorem presentedCounterIsPacked : Obligations.PresentedCounterIsPacked := by
  refine ⟨fun s c hc hb hr hs hp => ?run, fun b hi lo hb => ?order, counter_examples_hold (by decide)⟩
  case run =>
    obtain ⟨hi, lo, rfl⟩ := exists_counter_words hc
    rw [counterStmts_words] at hp
    exact ⟨_, stepsTo_counter_writes hb hr hs hp, rfl, rfl, rfl, rfl⟩
  case order =>
    rw [busWrite_counterLo hb, busWrite_counterHi hb, busWrite_counterHi (by exact hb),
      busWrite_counterLo (by exact hb)]

end Sys2Proof.Machine
end

section
/-! PROOFS. The hashes and HMAC: the padding of a message, the message schedules, the lengths of digests, the
construction of HMAC and the HMAC command. -/

namespace Sys2Proof.Machine

/-! ## Padding (R161) -/

/-- The zeros of the padding fill up to a block, and no fewer do. -/
theorem padZeros_least {block : Nat} (hblock : block = 64 ∨ block = 128) (field len : Nat) :
    (len + 1 + padZeros block field len + field) % block = 0
      ∧ ∀ z < padZeros block field len, (len + 1 + z + field) % block ≠ 0 := by
  unfold padZeros
  obtain rfl | rfl := hblock
  · exact ⟨by omega, fun z hz => by omega⟩
  · exact ⟨by omega, fun z hz => by omega⟩

theorem length_padMessage (block field : Nat) (m : List Byte) :
    (padMessage block field m).length = m.length + 1 + padZeros block field m.length + field := by
  simp only [padMessage, List.length_append, List.length_singleton, List.length_replicate, length_be]

/-- Settles O32: the number of zeros is `padZeros`, which is the least that fills a block. -/
theorem paddingIsTheLeastToAWholeBlock : Obligations.PaddingIsTheLeastToAWholeBlock := by
  intro m block field h
  obtain ⟨hfill, hleast⟩ := padZeros_least (h.imp And.left And.left) field m.length
  exact ⟨padZeros block field m.length, rfl, by rwa [length_padMessage], hleast⟩

/-! ## Message schedules (R165, R173, R178) -/

/-- The common form of the three schedules, oldest word first: `n` words added by `next` to those of the block. -/
def schedule {w : Nat} (next : List (BitVec w) → BitVec w) (n : Nat) (m : List (BitVec w)) : List (BitVec w) :=
  (extendSchedule next n m.reverse).reverse

section
variable {w : Nat} (next : List (BitVec w) → BitVec w) (m : List (BitVec w))

/-- The last word added is `next` of the schedule before it. -/
theorem extendSchedule_succ (n : Nat) (ws : List (BitVec w)) :
    extendSchedule next (n + 1) ws = next (extendSchedule next n ws) :: extendSchedule next n ws := by
  induction n generalizing ws with
  | zero => rfl
  | succ n ih => exact ih (next ws :: ws)

@[simp] theorem schedule_zero : schedule next 0 m = m := List.reverse_reverse m

theorem schedule_succ (n : Nat) :
    schedule next (n + 1) m = schedule next n m ++ [next (schedule next n m).reverse] := by
  simp [schedule, extendSchedule_succ]

@[simp] theorem length_schedule (n : Nat) : (schedule next n m).length = m.length + n := by
  induction n with
  | zero => simp
  | succ n ih => simp [schedule_succ, ih, Nat.add_assoc]

/-- Adding words leaves those that stand there. -/
theorem getD_schedule_of_le {i n t : Nat} (hi : i ≤ n) (ht : t < m.length + i) :
    (schedule next n m).getD t 0 = (schedule next i m).getD t 0 := by
  induction n, hi using Nat.le_induction with
  | base => rfl
  | succ n hi ih =>
    rw [schedule_succ, List.getD_append _ _ _ _ (by rw [length_schedule]; omega), ih]

/-- The schedule begins with the block's words. -/
theorem getD_schedule_block (n : Nat) {t : Nat} (ht : t < m.length) : (schedule next n m).getD t 0 = m.getD t 0 := by
  rw [getD_schedule_of_le next m n.zero_le ht, schedule_zero]

/-- Every later word is `next` of the words before it, in which `back k` is the word k places earlier. -/
theorem exists_getD_schedule_eq_next {n t : Nat} (ht : m.length ≤ t) (htn : t < m.length + n) :
    ∃ ws, (schedule next n m).getD t 0 = next ws
      ∧ ∀ k, 0 < k → k ≤ m.length → back ws k = (schedule next n m).getD (t - k) 0 := by
  obtain ⟨i, rfl⟩ := Nat.exists_eq_add_of_le ht
  refine ⟨(schedule next i m).reverse, ?word, fun k hk hkm => ?back⟩
  case word =>
    rw [getD_schedule_of_le next m (i := i + 1) (by omega) (by omega), schedule_succ,
      List.getD_append_right _ _ _ _ (length_schedule next m i).le, length_schedule, Nat.sub_self, List.getD_cons_zero]
  case back =>
    have hindex : m.length + i - 1 - (k - 1) = m.length + i - k := by omega
    rw [back, List.getD_reverse _ (by rw [length_schedule]; omega), length_schedule, hindex,
      ← getD_schedule_of_le next m (n := n) (by omega) (by omega)]

end

/-! ### SHA-1 -/

theorem sha1Schedule_eq (m : List (BitVec 32)) : sha1Schedule m = schedule sha1Next 64 m := rfl

theorem getD_sha1Schedule_next {m : List (BitVec 32)} (hm : m.length = 16) {t : Nat} (ht : 16 ≤ t) (ht80 : t < 80) :
    (sha1Schedule m).getD t 0 =
      rotl ((sha1Schedule m).getD (t - 3) 0 ^^^ (sha1Schedule m).getD (t - 8) 0
        ^^^ (sha1Schedule m).getD (t - 14) 0 ^^^ (sha1Schedule m).getD (t - 16) 0) 1 := by
  obtain ⟨ws, hword, hback⟩ := exists_getD_schedule_eq_next sha1Next m (n := 64) (by omega) (by omega : t < _)
  rw [sha1Schedule_eq, hword, sha1Next]
  simp (disch := omega) only [hback]

/-! ### SHA-256 and SHA-512 -/

section
variable {w : Nat} (p : Sha2Params w) {m : List (BitVec w)} (hm : m.length = 16)

theorem sha2Schedule_eq (m : List (BitVec w)) :
    sha2Schedule p m = schedule (sha2Next p) (p.constants.length - 16) m := rfl

include hm

theorem length_sha2Schedule (hp : 16 ≤ p.constants.length) : (sha2Schedule p m).length = p.constants.length := by
  rw [sha2Schedule_eq, length_schedule, hm, Nat.add_sub_cancel' hp]

theorem getD_sha2Schedule_block {t : Nat} (ht : t < 16) : (sha2Schedule p m).getD t 0 = m.getD t 0 :=
  getD_schedule_block (sha2Next p) m _ (hm ▸ ht)

theorem getD_sha2Schedule_next {t : Nat} (ht : 16 ≤ t) (htp : t < p.constants.length) :
    (sha2Schedule p m).getD t 0 =
      p.smallSigma1 ((sha2Schedule p m).getD (t - 2) 0) + (sha2Schedule p m).getD (t - 7) 0
        + p.smallSigma0 ((sha2Schedule p m).getD (t - 15) 0) + (sha2Schedule p m).getD (t - 16) 0 := by
  obtain ⟨ws, hword, hback⟩ :=
    exists_getD_schedule_eq_next (sha2Next p) m (n := p.constants.length - 16) (by omega) (by omega : t < _)
  rw [sha2Schedule_eq, hword, sha2Next]
  simp (disch := omega) only [hback]

end

/-- Settles O33: each schedule is the common form with its own recurrence. -/
theorem schedulesFollowTheirRecurrence : Obligations.SchedulesFollowTheirRecurrence := by
  refine ⟨fun m hm => ?sha1, fun m hm => ?sha256, fun m hm => ?sha512⟩
  case sha1 =>
    exact ⟨by rw [sha1Schedule_eq, length_schedule, hm], fun t ht => getD_schedule_block sha1Next m 64 (hm ▸ ht),
      fun t => getD_sha1Schedule_next hm⟩
  case sha256 =>
    exact ⟨length_sha2Schedule sha256Params hm (by decide), fun t => getD_sha2Schedule_block sha256Params hm,
      fun t => getD_sha2Schedule_next sha256Params hm⟩
  case sha512 =>
    exact ⟨length_sha2Schedule sha512Params hm (by decide), fun t => getD_sha2Schedule_block sha512Params hm,
      fun t => getD_sha2Schedule_next sha512Params hm⟩

/-! ## The length of a digest (R181) -/

/-- Settles O34, by the lengths of the hashes and of HMAC. -/
theorem digestLengthIsTheAlgorithms : Obligations.DigestLengthIsTheAlgorithms := by
  intro a key text
  rw [length_hash, length_hmac]
  cases a <;> exact ⟨rfl, rfl⟩

/-! ## HMAC (R185) -/

theorem digestBytes_le_blockBytes (a : Alg) : a.digestBytes ≤ a.blockBytes := by cases a <;> decide

@[simp] theorem length_hmacKey (a : Alg) (key : List Byte) : (hmacKey a key).length = a.blockBytes := length_padTo _ _

theorem hmacKey_of_long {a : Alg} {key : List Byte} (h : key.length > a.blockBytes) :
    hmacKey a key = padTo a.blockBytes (a.hash key) := by
  rw [hmacKey, if_pos h]

theorem hmacKey_of_short {a : Alg} {key : List Byte} (h : key.length ≤ a.blockBytes) :
    hmacKey a key = padTo a.blockBytes key := by
  rw [hmacKey, if_neg (Nat.not_lt.mpr h)]

/-- K0 as the hash or the key with the zeros that follow it. -/
theorem hmacKey_eq_append (a : Alg) (key : List Byte) :
    hmacKey a key =
      if key.length > a.blockBytes then a.hash key ++ List.replicate (a.blockBytes - a.digestBytes) 0#8
      else key ++ List.replicate (a.blockBytes - key.length) 0#8 := by
  split
  · next h =>
    rw [hmacKey_of_long h, padTo_of_le (by rw [length_hash]; exact digestBytes_le_blockBytes a), length_hash]
  · next h => rw [hmacKey_of_short (Nat.not_lt.mp h), padTo_of_le (Nat.not_lt.mp h)]

/-- A key longer than a block and its hash give the same K0. -/
theorem hmacKey_hash {a : Alg} {key : List Byte} (h : key.length > a.blockBytes) :
    hmacKey a (a.hash key) = hmacKey a key := by
  rw [hmacKey_of_long h, hmacKey_of_short (by rw [length_hash]; exact digestBytes_le_blockBytes a)]

/-- Zeros that padding would add anyway change nothing. -/
theorem padTo_append_zeros {n z : Nat} {s : List Byte} (h : s.length + z ≤ n) :
    padTo n (s ++ List.replicate z 0#8) = padTo n s := by
  have hlen : (s ++ List.replicate z 0#8).length = s.length + z := by simp
  rw [padTo_of_le (hlen.trans_le h), padTo_of_le (Nat.le_of_add_right_le h), hlen, List.append_assoc,
    List.replicate_append_replicate]
  congr 2
  omega

theorem hmacKey_append_zeros {a : Alg} {key : List Byte} {z : Nat} (h : key.length + z ≤ a.blockBytes) :
    hmacKey a (key ++ List.replicate z 0#8) = hmacKey a key := by
  rw [hmacKey_of_short (by simpa using h), hmacKey_of_short (Nat.le_of_add_right_le h), padTo_append_zeros h]

/-- HMAC sees of its key no more than K0. -/
theorem hmac_congr {a : Alg} {key key' : List Byte} (h : hmacKey a key = hmacKey a key') (text : List Byte) :
    hmac a key text = hmac a key' text := by
  rw [hmac, hmac, h]

/-- XOR with one byte throughout is XOR with the string of that byte. -/
theorem xorAll_eq_zipWith (s : List Byte) (b : Byte) :
    xorAll s b = s.zipWith (· ^^^ ·) (List.replicate s.length b) := by
  induction s with
  | nil => rfl
  | cons c cs ih => exact congrArg (List.cons (c ^^^ b)) ih

/-- The construction of R185, over the pads written out. -/
theorem hmac_eq_hash_zipWith (a : Alg) (key text : List Byte) :
    hmac a key text =
      a.hash ((hmacKey a key).zipWith (· ^^^ ·) (List.replicate a.blockBytes 0x5C#8)
        ++ a.hash ((hmacKey a key).zipWith (· ^^^ ·) (List.replicate a.blockBytes 0x36#8) ++ text)) := by
  rw [hmac, xorAll_eq_zipWith, xorAll_eq_zipWith, length_hmacKey]

/-- Settles O35: K0 is `hmacKey`, and HMAC depends on the key through it alone. -/
theorem hmacKeyIsHashedOrZeroFilled : Obligations.HmacKeyIsHashedOrZeroFilled := by
  refine ⟨fun a H B L key text K0 halg hK0 => ?construction,
    fun a key text => ⟨fun hlong => hmac_congr (hmacKey_hash hlong).symm text,
      fun z hz => hmac_congr (hmacKey_append_zeros hz) text⟩⟩
  have hparams : H = a.hash ∧ B = a.blockBytes ∧ L = a.digestBytes := by
    obtain ⟨rfl, h⟩ | ⟨rfl, h⟩ | ⟨rfl, h⟩ := halg <;> exact h
  obtain ⟨rfl, rfl, rfl⟩ := hparams
  obtain rfl := hK0.trans (hmacKey_eq_append a key).symm
  exact ⟨length_hmacKey a key, hmac_eq_hash_zipWith a key text⟩

/-! ## The HMAC command (R200) -/

/-- A command whose body reports an error raises it and writes nothing else. -/
theorem exec_of_bodyOf_error (i : Instr) {s : State} {e : CommandError} (h : bodyOf i s.block = .error e) :
    exec i s = .next (s.withBlock (raise e s.block)) := by
  rw [exec_eq, h, commit_error]

/-- A command whose body answers a block completes it. -/
theorem exec_of_bodyOf_ok (i : Instr) {s : State} {c : Block} (h : bodyOf i s.block = .ok c) :
    exec i s = .next (s.withBlock (complete c)) := by
  rw [exec_eq, h, commit_ok]

theorem hmacBody_tooLong {b : Block} (h : b.keyLen.toNat > 160) : hmacBody b = .error .invalidLength := if_pos h

theorem hmacBody_unsupported {b : Block} (hlen : b.keyLen.toNat ≤ 160) (ha : algOf b.ctrlAlg = none) :
    hmacBody b = .error .unsupportedAlgorithm := by
  rw [hmacBody, if_neg (Nat.not_lt.mpr hlen), ha]

theorem hmacBody_ok {b : Block} {a : Alg} (hlen : b.keyLen.toNat ≤ 160) (ha : algOf b.ctrlAlg = some a) :
    hmacBody b = .ok (writeDigest (hmac a (keyBytes b) (counterMessage b)) b) := by
  rw [hmacBody, if_neg (Nat.not_lt.mpr hlen), ha]

/-- Settles O36, case by case of the body. -/
theorem hmacCommandResult : Obligations.HmacCommandResult := by
  refine fun s => ⟨fun hlong => ?long, fun hlen halg => ?unsupported, fun a len hlen halg => ?result⟩
  case long => exact exec_of_bodyOf_error .hmac (hmacBody_tooLong hlong)
  case unsupported => exact exec_of_bodyOf_error .hmac (hmacBody_unsupported hlen ((algOf_eq_none _).mpr halg))
  case result =>
    have hselected : algOf s.block.ctrlAlg = some a ∧ len = BitVec.ofNat 32 a.digestBytes := by
      obtain ⟨hc, rfl, rfl⟩ | ⟨hc, rfl, rfl⟩ | ⟨hc, rfl, rfl⟩ := halg <;> rw [hc] <;> exact ⟨rfl, rfl⟩
    obtain ⟨ha, rfl⟩ := hselected
    rw [exec_of_bodyOf_ok .hmac (hmacBody_ok hlen ha), ← length_hmac a (keyBytes s.block) (counterMessage s.block)]
    rfl

end Sys2Proof.Machine
end

section
/-! PROOFS. Truncation: the offset, the window and the value of a digest, the errors and the result of TRUNC, and the
decimal digits of a code. -/

namespace Sys2Proof.Machine

/-! ## The offset and the window (R221 to R223) -/

theorem toNat_truncOffset (d : List Byte) : (truncOffset d).toNat = (d.getD (d.length - 1) 0#8).toNat % 16 := by
  rw [truncOffset, BitVec.extractLsb'_toNat, Nat.shiftRight_zero]

theorem truncOffset_concat (d : List Byte) (c : Byte) : (truncOffset (d ++ [c])).toNat = c.toNat % 16 := by
  rw [toNat_truncOffset]
  simp

/-- The offset is the last hex digit of the digest. -/
theorem getLast?_hexDigits {d : List Byte} (h : d ≠ []) : (hexDigits d).getLast? = some (truncOffset d).toNat := by
  obtain ⟨front, c, rfl⟩ := (List.eq_nil_or_concat' d).resolve_left h
  rw [truncOffset_concat]
  simp [hexDigits]

theorem slice_four (s : List Byte) {i : Nat} (h : i + 4 ≤ s.length) :
    slice s i (i + 4) = [s.getD i 0#8, s.getD (i + 1) 0#8, s.getD (i + 2) 0#8, s.getD (i + 3) 0#8] := by
  apply List.ext_getElem (by simp; omega)
  intro m hm hm'
  have hm4 : m < 4 := hm'
  rw [← List.getD_eq_getElem _ 0#8 hm, getD_slice s (by omega)]
  interval_cases m <;> rfl

/-- The window lies inside a digest of any of the three lengths. -/
theorem truncOffset_add_four_le {d : List Byte} (h : 19 ≤ d.length) : (truncOffset d).toNat + 4 ≤ d.length := by
  have hoff := (truncOffset d).isLt
  omega

theorem truncWindow_eq {d : List Byte} (h : 19 ≤ d.length) :
    truncWindow d = (d.getD (truncOffset d).toNat 0#8).toNat * 2 ^ 24
      + (d.getD ((truncOffset d).toNat + 1) 0#8).toNat * 2 ^ 16
      + (d.getD ((truncOffset d).toNat + 2) 0#8).toNat * 2 ^ 8
      + (d.getD ((truncOffset d).toNat + 3) 0#8).toNat := by
  rw [truncWindow, slice_four d (truncOffset_add_four_le h)]
  simp only [intBe, List.foldl_cons, List.foldl_nil]
  omega

theorem truncValue_eq_mod (d : List Byte) : truncValue d = truncWindow d % 2 ^ 31 :=
  Nat.and_two_pow_sub_one_eq_mod _ 31

/-- Settles O38: the offset is a nibble, and the window is read byte by byte. -/
theorem truncationFollowsTheByteOffset : Obligations.TruncationFollowsTheByteOffset := by
  intro d hlen
  have hlong : 19 ≤ d.length := by omega
  have hnonempty : d ≠ [] := List.ne_nil_of_length_pos (by omega)
  have hnibble : (truncOffset d).toNat = (d.getD (d.length - 1) 0#8).toNat &&& 0x0F :=
    (toNat_truncOffset d).trans (Nat.and_two_pow_sub_one_eq_mod _ 4).symm
  have hoff := (truncOffset d).isLt
  exact ⟨hnibble, getLast?_hexDigits hnonempty, by omega, truncWindow_eq hlong, rfl,
    Nat.le_pred_of_lt (truncValue_lt d)⟩

/-! ## The TRUNC command (R224) -/

theorem legalDigits_iff_toNat (d : BitVec 4) : legalDigits d = true ↔ 6 ≤ d.toNat ∧ d.toNat ≤ 8 := by
  revert d; decide

theorem truncBody_invalidDigits {b : Block} (h : legalDigits b.ctrlDigits = false) :
    truncBody b = .error .invalidDigits := by
  rw [truncBody, if_neg (Bool.eq_false_iff.mp h)]

theorem truncBody_noDigest {b : Block} (hd : legalDigits b.ctrlDigits = true) (h : b.digestLen = 0) :
    truncBody b = .error .noDigest := by
  rw [truncBody, if_pos hd, if_pos h]

theorem truncBody_ok {b : Block} (hd : legalDigits b.ctrlDigits = true) (h : b.digestLen ≠ 0) :
    truncBody b = .ok (writeCode (digestBytes b) b.ctrlDigits.toNat b) := by
  rw [truncBody, if_pos hd, if_neg h]

theorem length_digestBytes {b : Block} (h : b.digestLen.toNat ≤ 64) : (digestBytes b).length = b.digestLen.toNat := by
  simpa [digestBytes] using h

theorem getD_digestBytes {b : Block} {i : Nat} (h : i < b.digestLen.toNat) :
    (digestBytes b).getD i 0#8 = b.digest.byte i := by
  rw [digestBytes, getD_slice _ (by omega), Nat.zero_add, Buf.byte]

/-- The offset of the digest in DIGEST, from its last byte there. -/
theorem truncOffset_digestBytes {b : Block} (hpos : 0 < b.digestLen.toNat) (hmax : b.digestLen.toNat ≤ 64) :
    (truncOffset (digestBytes b)).toNat = (b.digest.byte (b.digestLen.toNat - 1)).toNat % 16 := by
  rw [toNat_truncOffset, length_digestBytes hmax, getD_digestBytes (by omega)]

/-- The window of the digest in DIGEST, from the bytes there. -/
theorem truncWindow_digestBytes {b : Block} {off : Nat} (hmin : 19 ≤ b.digestLen.toNat)
    (hmax : b.digestLen.toNat ≤ 64) (hoff : off = (truncOffset (digestBytes b)).toNat) :
    truncWindow (digestBytes b) = (b.digest.byte off).toNat * 2 ^ 24 + (b.digest.byte (off + 1)).toNat * 2 ^ 16
      + (b.digest.byte (off + 2)).toNat * 2 ^ 8 + (b.digest.byte (off + 3)).toNat := by
  have hlen := length_digestBytes hmax
  have hinside := truncOffset_add_four_le (hlen.symm ▸ hmin)
  have hbyte : ∀ i < off + 4, (digestBytes b).getD i 0#8 = b.digest.byte i :=
    fun i hi => getD_digestBytes (by omega)
  rw [truncWindow_eq (hlen.symm ▸ hmin), ← hoff, hbyte off (by omega), hbyte (off + 1) (by omega),
    hbyte (off + 2) (by omega), hbyte (off + 3) (by omega)]

/-- Settles O39, case by case of the body. -/
theorem truncCommandResult : Obligations.TruncCommandResult := by
  refine fun s => ⟨fun hbad => ?digits, fun hlow hhigh hnone => ?noDigest,
    fun d off value code hd hlow hhigh hlen hoff hvalue hcode => ?result⟩
  case digits =>
    have hillegal : legalDigits s.block.ctrlDigits = false := by
      rw [Bool.eq_false_iff, Ne, legalDigits_iff_toNat]
      omega
    exact exec_of_bodyOf_error .trunc (truncBody_invalidDigits hillegal)
  case noDigest =>
    exact exec_of_bodyOf_error .trunc (truncBody_noDigest ((legalDigits_iff_toNat _).mpr ⟨hlow, hhigh⟩) hnone)
  case result =>
    subst hd
    have hlegal := (legalDigits_iff_toNat _).mpr ⟨hlow, hhigh⟩
    have hrange : 19 ≤ s.block.digestLen.toNat ∧ s.block.digestLen.toNat ≤ 64 := by
      obtain h | h | h := hlen <;> rw [h] <;> decide
    obtain ⟨hmin, hmax⟩ := hrange
    have hdigest : s.block.digestLen ≠ 0 := fun h => by simp [h] at hmin
    rw [← truncOffset_digestBytes (by omega) hmax] at hoff
    rw [← truncWindow_digestBytes hmin hmax hoff, ← truncValue_eq_mod] at hvalue
    subst hoff hvalue hcode
    rw [exec_of_bodyOf_ok .trunc (truncBody_ok hlegal hdigest), BitVec.ofNat_toNat, BitVec.setWidth_eq]
    rfl

/-! ## Decimal digits (R225) -/

@[simp] theorem length_decimalAscii (code n : Nat) : (decimalAscii code n).length = n := by simp [decimalAscii]

theorem toNat_getD_decimalAscii (code : Nat) {n j : Nat} (h : j < n) :
    ((decimalAscii code n).getD j 0#8).toNat = 0x30 + code / 10 ^ (n - 1 - j) % 10 := by
  rw [List.getD_eq_getElem _ _ (by rwa [length_decimalAscii])]
  simp only [decimalAscii, List.getElem_map, List.getElem_range, BitVec.toNat_ofNat]
  omega

/-- The last character is the last decimal digit, and the characters before it write the rest of the code. -/
theorem decimalAscii_succ (code n : Nat) :
    decimalAscii code (n + 1) = decimalAscii (code / 10) n ++ [BitVec.ofNat 8 (0x30 + code % 10)] := by
  rw [decimalAscii, List.range_succ, List.map_append, List.map_singleton, Nat.add_sub_cancel, Nat.sub_self,
    pow_zero, Nat.div_one]
  congr 1
  apply List.map_congr_left
  intro j hj
  have hpow : n - j = n - 1 - j + 1 := by have := List.mem_range.mp hj; omega
  rw [hpow, pow_succ', Nat.div_div_eq_div_mul]

theorem asciiValue_concat (s : List Byte) (c : Byte) :
    asciiValue (s ++ [c]) = 10 * asciiValue s + (c.toNat - 0x30) := by
  simp [asciiValue]

/-- The characters of a code write its number, as far as they reach. -/
theorem asciiValue_decimalAscii (code n : Nat) : asciiValue (decimalAscii code n) = code % 10 ^ n := by
  induction n generalizing code with
  | zero => rw [pow_zero, Nat.mod_one]; rfl
  | succ n ih =>
    have hdigit : (BitVec.ofNat 8 (0x30 + code % 10)).toNat - 0x30 = code % 10 := by
      rw [BitVec.toNat_ofNat]
      omega
    rw [decimalAscii_succ, asciiValue_concat, ih, hdigit, pow_succ', Nat.mod_mul, Nat.add_comm]

theorem take_padTo {n : Nat} {s : List Byte} (h : s.length ≤ n) : (padTo n s).take s.length = s := slice_padTo h

/-! ## The code after a command (R226, R43) -/

/-- TRUNC, GENERATE and VERIFY without error leave the code registers as the truncation stage writes them, at a legal
digit count. -/
theorem exec_sameCode_writeCode {i : Instr} {s t : State} (hi : i = .trunc ∨ i = .generate ∨ i = .verify)
    (h : exec i s = .next t) (herror : t.block.error = 0) :
    legalDigits s.block.ctrlDigits = true
      ∧ ∃ d, SameCode (writeCode d s.block.ctrlDigits.toNat s.block) t.block := by
  rcases exec_cases h with ⟨c, hc, rfl⟩ | ⟨e, -, rfl⟩
  · rcases bodyOf_ok hc with ⟨rfl, -⟩ | ⟨rfl, -⟩ | ⟨-, hd, -, rfl⟩ | ⟨rfl, -⟩
      | ⟨-, key, a, -, hd, -, rfl⟩ | ⟨-, key, a, -, hd, -, rfl⟩ | ⟨rfl, -⟩
    case inr.inr.inl => exact ⟨hd, digestBytes s.block, rfl, rfl, rfl, rfl, rfl⟩
    case inr.inr.inr.inr.inl => exact ⟨hd, hmac a key (counterMessage s.block), rfl, rfl, rfl, rfl, rfl⟩
    case inr.inr.inr.inr.inr.inl => exact ⟨hd, hmac a key (counterMessage s.block), rfl, rfl, rfl, rfl, rfl⟩
    all_goals simp at hi
  · exact absurd herror (errorCode_ne_zero e)

/-- Settles O40: the code is below 10^DIGITS, so its DIGITS characters write all of it. -/
theorem codeHasExactlyDigitsDigits : Obligations.CodeHasExactlyDigitsDigits := by
  intro i s t hi h herror
  obtain ⟨hlegal, d, -, -, hbin, hlen, hascii⟩ := exec_sameCode_writeCode hi h herror
  rw [← hbin, ← hlen, ← hascii, writeCode_codeBin, writeCode_codeLen, writeCode_codeAscii]
  have hn := toNat_le_eight_of_legalDigits hlegal
  generalize s.block.ctrlDigits.toNat = n at hn ⊢
  have hcode : foldCode (truncValue d) n < 10 ^ n := Nat.mod_lt _ (by positivity)
  have hfits : foldCode (truncValue d) n % 2 ^ 32 = foldCode (truncValue d) n := Nat.mod_eq_of_lt (foldCode_lt _ hn)
  generalize foldCode (truncValue d) n = code at hcode hfits ⊢
  rw [BitVec.toNat_ofNat, BitVec.toNat_ofNat, hfits]
  refine ⟨Nat.mod_eq_of_lt (by omega), fun j hj => ?digit, fun j hj => ?zero, ?value, hcode⟩
  case digit =>
    rw [Buf.byte_ofBytes, if_pos (by omega), toNat_getD_decimalAscii code hj]
    omega
  case zero =>
    rw [Buf.byte_ofBytes, List.getD_eq_default _ _ (by rwa [length_decimalAscii])]
    exact ite_self _
  case value =>
    have htake := take_padTo (n := 8) (s := decimalAscii code n) (by rwa [length_decimalAscii])
    rw [length_decimalAscii] at htake
    rw [Buf.bytes_ofBytes, htake, asciiValue_decimalAscii, Nat.mod_eq_of_lt hcode]

end Sys2Proof.Machine
end

section
/-! PROOFS. The comparator: COMPARE, the fixed-schedule form of its comparison, and a candidate that the host writes. -/

namespace Sys2Proof.Machine

/-! ## The comparison (R240) -/

theorem legalCodeLen_iff (n : Word) : legalCodeLen n = true ↔ n = 6 ∨ n = 7 ∨ n = 8 := by
  simp [legalCodeLen, or_assoc]

theorem toNat_le_eight_of_eq {n : Word} (h : n = 6 ∨ n = 7 ∨ n = 8) : n.toNat ≤ 8 := by
  rcases h with rfl | rfl | rfl <;> decide

theorem codeMatches_iff (b : Block) : codeMatches b = true ↔ CandidateIsCode b := by
  simp only [codeMatches, CandidateIsCode, Bool.and_eq_true, legalCodeLen_iff, List.all_eq_true, List.mem_range,
    beq_iff_eq, and_assoc]

/-- The code registers describe a code exactly when CODE_LEN is not 0 (R226). -/
theorem Block.CodeInv.codeLen_ne_zero_iff {b : Block} (h : b.CodeInv) :
    b.codeLen ≠ 0 ↔ b.codeLen = 6 ∨ b.codeLen = 7 ∨ b.codeLen = 8 := by
  constructor
  · intro hne
    rcases h with ⟨hzero, -⟩ | ⟨hlegal, -⟩
    · exact absurd hzero hne
    · exact (legalCodeLen_iff _).mp hlegal
  · rintro (h | h | h) <;> rw [h] <;> decide

/-! ## The COMPARE command (R242) -/

theorem exec_compare (s : State) : exec .compare s = .next (s.withBlock (complete (writeVerdict s.block))) :=
  exec_of_bodyOf_ok .compare rfl

/-- Settles O41: the verdict follows the comparison. -/
theorem compareCommandResult : Obligations.CompareCommandResult := by
  intro s
  rw [exec_compare, writeVerdict, ← codeMatches_iff]
  constructor
  · intro h
    rw [if_pos h]
    rfl
  · intro h
    rw [if_neg h]
    rfl

/-! ## The fixed schedule (R241) -/

/-- An accumulated OR is zero exactly when every term is. -/
theorem foldl_or_eq_zero_iff {w : Nat} (f : Nat → BitVec w) (l : List Nat) (acc : BitVec w) :
    l.foldl (fun diff i => diff ||| f i) acc = 0#w ↔ acc = 0#w ∧ ∀ i ∈ l, f i = 0#w := by
  induction l generalizing acc with
  | nil => simp
  | cons i l ih => rw [List.foldl_cons, ih, BitVec.or_eq_zero_iff, List.forall_mem_cons, and_assoc]

/-- The term of one position: zero where the position is masked out or the characters are equal. -/
theorem maskedDiff_eq_zero_iff (x y : Byte) (used : Prop) [Decidable used] :
    (x ^^^ y) &&& (if used then 0xFF#8 else 0x00#8) = 0#8 ↔ (used → x = y) := by
  by_cases h : used
  · rw [if_pos h, show (0xFF#8 : Byte) = BitVec.allOnes 8 from rfl, BitVec.and_allOnes, BitVec.xor_eq_zero_iff]
    simp [h]
  · simp [h]

theorem fixedDiff_eq_zero_iff (b : Block) :
    fixedDiff b = 0#8 ↔ ∀ i < 8, i < b.codeLen.toNat → b.cand.byte i = b.codeAscii.byte i := by
  simp only [fixedDiff, foldl_or_eq_zero_iff, maskedDiff_eq_zero_iff, List.mem_range, true_and]

theorem codeMatchesFixed_iff (b : Block) :
    codeMatchesFixed b = true ↔ b.codeLen ≠ 0 ∧ b.candLen = b.codeLen
      ∧ ∀ i < 8, i < b.codeLen.toNat → b.cand.byte i = b.codeAscii.byte i := by
  rw [codeMatchesFixed, Bool.and_eq_true, Bool.and_eq_true, beq_iff_eq, bne_iff_ne, beq_iff_eq, fixedDiff_eq_zero_iff,
    and_assoc, and_left_comm]
  rfl

/-- Settles O42: a code has at most 8 characters, so the 8 positions are all of it. -/
theorem fixedScheduleComparesTheSame : Obligations.FixedScheduleComparesTheSame := by
  intro b hb
  rw [Bool.eq_iff_iff, codeMatchesFixed_iff, codeMatches_iff, CandidateIsCode, hb.codeLen_ne_zero_iff]
  refine and_congr_right fun hlen => and_congr_right fun _ => ?_
  have hmax := toNat_le_eight_of_eq hlen
  exact ⟨fun h i hi => h i (by omega) hi, fun h i _ hi => h i hi⟩

/-! ## A candidate that the host writes (R243) -/

/-- The bytes of a buffer word are the four bytes of the buffer that it stands for. -/
theorem wordBytes_word {n : Nat} (b : Buf n) {k : Nat} (h : 4 * k + 4 ≤ n) :
    wordBytes (b.word k) = slice b.bytes (4 * k) (4 * k + 4) := by
  have hlen : (slice b.bytes (4 * k) (4 * k + 4)).length = 4 := by simp; omega
  have hbytes := be_intBe (slice b.bytes (4 * k) (4 * k + 4))
  rwa [hlen, ← Buf.toNat_word b h, be_four_toNat] at hbytes

/-- A word copied from another buffer brings that buffer's bytes. -/
theorem Buf.byte_setWord_word {n : Nat} (b c : Buf n) {k : Nat} (h : 4 * k + 4 ≤ n) (i : Nat) :
    (b.setWord k (c.word k)).byte i = if i < n ∧ i / 4 = k then c.byte i else b.byte i := by
  rw [Buf.byte_setWord]
  refine ite_congr rfl (fun hi => ?_) fun _ => rfl
  obtain ⟨-, rfl⟩ := hi
  rw [wordBytes_word c h, getD_slice c.bytes (by omega), Nat.div_add_mod, Buf.byte]

/-- Both words of an 8-byte buffer are the whole of it. -/
theorem Buf.setWord_both (b c : Buf 8) : (b.setWord 0 (c.word 0)).setWord 1 (c.word 1) = c := by
  apply Buf.ext_byte
  intro i hi
  rw [Buf.byte_setWord_word _ c (by decide), Buf.byte_setWord_word _ c (by decide)]
  split
  · rfl
  · rw [if_pos (by omega)]

/-- A bus write of a CAND word while idle. -/
theorem busWrite_cand {b : Block} (hb : b.busy = false) {k : Nat} (hk : k < 2) (v : Word) :
    busWrite (0x050 + 4 * k) v b = { b with cand := b.cand.setWord k v } := by
  rw [busWrite_idle hb, regAt_of_regOffset (r := .cand k) (if_pos hk)]
  rfl

theorem busWrite_candLen {b : Block} (hb : b.busy = false) (v : Word) :
    busWrite 0x03C v b = { b with candLen := v } := busWrite_idle hb 0x03C v

/-- The block after the host's three writes of a candidate. -/
theorem busWrite_candidate {b : Block} (hb : b.busy = false) (cand : List Byte) :
    busWrite 0x03C (candidateLen cand)
        (busWrite 0x054 ((candidateBuf cand).word 1) (busWrite 0x050 ((candidateBuf cand).word 0) b)) =
      { b with cand := candidateBuf cand, candLen := candidateLen cand } := by
  have hfirst := busWrite_cand hb (k := 0) (by decide) ((candidateBuf cand).word 0)
  have hsecond := busWrite_cand (b := { b with cand := b.cand.setWord 0 ((candidateBuf cand).word 0) }) hb (k := 1)
    (by decide) ((candidateBuf cand).word 1)
  rw [hfirst, hsecond, busWrite_candLen (by exact hb), Buf.setWord_both]

/-- CAND_LEN tells every short length apart, although a long candidate's length is cut to 32 bits. -/
theorem candidateLen_eq_iff {cand : List Byte} {n : Word} (hn : n.toNat ≤ 8) :
    candidateLen cand = n ↔ cand.length = n.toNat := by
  rw [candidateLen, ← BitVec.toNat_inj, BitVec.toNat_ofNat, Nat.mod_eq_of_lt (by omega)]
  omega

/-- A string is the first `n` bytes of a buffer exactly when it has that length and its bytes are the buffer's. -/
theorem eq_take_bytes_iff {m n : Nat} (hn : n ≤ m) (cand : List Byte) (code : Buf m) :
    cand = code.bytes.take n ↔ cand.length = n ∧ ∀ i < n, (Buf.ofBytes m cand).byte i = code.byte i := by
  have hbytes : ∀ i (hi : i < n) (hc : i < cand.length),
      (Buf.ofBytes m cand).byte i = code.byte i ↔ cand[i] = code.bytes[i]'(by simp; omega) := by
    intro i hi hc
    rw [Buf.byte_ofBytes, if_pos (by omega), List.getD_eq_getElem _ _ hc, Buf.byte_eq_getElem code i (by omega)]
  rw [List.ext_getElem_iff]
  simp only [List.length_take, Buf.length_bytes, Nat.min_eq_left hn, List.getElem_take]
  refine and_congr_right fun hlen => ⟨fun h i hi => ?_, fun h i hc hi => ?_⟩
  · exact (hbytes i hi (by omega)).mpr (h i (by omega) hi)
  · exact (hbytes i hi hc).mp (h i hi)

/-- Settles O43: the writes put the candidate into CAND and its length into CAND_LEN, and the comparison of the two with
the code is the equality of the strings. -/
theorem hostCandidateMatchesAsAString : Obligations.HostCandidateMatchesAsAString := by
  intro b cand hidle hb
  rw [busWrite_candidate hidle, codeMatches_iff, CandidateIsCode, hb.codeLen_ne_zero_iff]
  refine and_congr_right fun hlen => ?_
  have hmax := toNat_le_eight_of_eq hlen
  rw [candidateLen_eq_iff hmax, candidateBuf, ← eq_take_bytes_iff hmax]

end Sys2Proof.Machine
end

section
/-! PROOFS. The composite commands: the checks and the result of GENERATE, its units in turn, and VERIFY's verdict; then
ZEROIZE and the illegal codes. -/

namespace Sys2Proof.Machine

/-! ## A command alone -/

/-- A command issued and completed, where its body answers a block. -/
theorem commandAlone_of_bodyOf_ok (i : Instr) {s : State} {c : Block}
    (h : bodyOf i (issue (encodeCode i) s.block) = .ok c) :
    commandAlone i s = .next (s.withBlock (complete c)) :=
  exec_of_bodyOf_ok i (s := s.withBlock (issue (encodeCode i) s.block)) h

/-- A command issued and completed, where its body reports an error. -/
theorem commandAlone_of_bodyOf_error (i : Instr) {s : State} {e : CommandError}
    (h : bodyOf i (issue (encodeCode i) s.block) = .error e) :
    commandAlone i s = .next (s.withBlock (raise e (issue (encodeCode i) s.block))) :=
  exec_of_bodyOf_error i (s := s.withBlock (issue (encodeCode i) s.block)) h

/-! ## The checks of GENERATE (R261, R291) -/

/-- The length rule of R261, in arithmetic. -/
theorem legalSecretLen_iff (n : Nat) : legalSecretLen n = true ↔ 16 ≤ n ∧ n % 8 = 0 ∧ n ≤ 256 := by
  simp [legalSecretLen, and_assoc]

theorem le_of_legalSecretLen {n : Nat} (h : legalSecretLen n = true) : n ≤ 256 :=
  ((legalSecretLen_iff n).mp h).2.2

theorem algOf_eq_some_iff (x : BitVec 2) (a : Alg) :
    algOf x = some a ↔ (x = 0 ∧ a = .sha1) ∨ (x = 1 ∧ a = .sha256) ∨ (x = 2 ∧ a = .sha512) := by
  revert x; cases a <;> decide

/-- The length and charset checks at KSRC = 1 pass exactly where the secret has a legal length and decodes. -/
theorem generateKey_base32_iff {b : Block} (h : b.ctrlKsrc = true) (key : List Byte) :
    generateKey b = .ok key ↔
      legalSecretLen b.secretLen.toNat = true ∧ b32decode (secretChars b) = some key := by
  rcases generateKey_cases b with ⟨-, hl, e⟩ | ⟨-, hl, hd, e⟩ | ⟨k, -, hl, hd, e⟩ | ⟨hk, -⟩ | ⟨hk, -⟩
  · simp [e, hl]
  · simp [e, hd]
  · simp [e, hl, hd]
  · simp [h] at hk
  · simp [h] at hk

/-- The length check at KSRC = 0 passes exactly where the raw key fits KEY. -/
theorem generateKey_raw_iff {b : Block} (h : b.ctrlKsrc = false) (key : List Byte) :
    generateKey b = .ok key ↔ b.keyLen.toNat ≤ 160 ∧ key = keyBytes b := by
  rcases generateKey_cases b with ⟨hk, -⟩ | ⟨hk, -⟩ | ⟨k, hk, -⟩ | ⟨-, hlen, e⟩ | ⟨-, hlen, e⟩
  · simp [h] at hk
  · simp [h] at hk
  · simp [h] at hk
  · simp [e]; omega
  · simp [e, hlen, eq_comm]

/-- The operands that pass every check are those on which the model's checks answer. -/
theorem generateReady_iff (b : Block) (key : List Byte) (a : Alg) :
    GenerateReady b key a ↔
      generateKey b = .ok key ∧ legalDigits b.ctrlDigits = true ∧ algOf b.ctrlAlg = some a := by
  rw [GenerateReady, legalDigits_iff, algOf_eq_some_iff, ← and_assoc]
  refine and_congr_left fun _ => ?_
  cases h : b.ctrlKsrc with
  | true =>
    rw [generateKey_base32_iff h, legalSecretLen_iff]
    simp [secretChars, slice, and_assoc]
  | false =>
    rw [generateKey_raw_iff h]
    simp [keyBytes, slice]

theorem generateBody_of_ready {b : Block} {key : List Byte} {a : Alg} (h : GenerateReady b key a) :
    generateBody b = .ok (generateResults key a b) := by
  obtain ⟨hkey, hd, ha⟩ := (generateReady_iff b key a).mp h
  rw [generateBody, generateChecks, hkey]
  simp [hd, ha]

theorem ready_of_generateBody_ok {b c : Block} (h : generateBody b = .ok c) :
    ∃ key a, GenerateReady b key a ∧ c = generateResults key a b := by
  rcases generateBody_cases b with ⟨_, -, e⟩ | ⟨_, -, -, e⟩ | ⟨_, -, -, -, e⟩ | ⟨key, a, hkey, hd, ha, e⟩ <;>
    rw [e] at h <;> cases h
  exact ⟨key, a, (generateReady_iff b key a).mpr ⟨hkey, hd, ha⟩, rfl⟩

/-! ## The first failing check (R291) -/

/-- Some character of the secret is bad exactly when the decoder's charset check fails (R131). -/
theorem badChar_eq {b : Block} (h : b.secretLen.toNat ≤ 256) : badChar b = (b32decode (secretChars b)).isNone := by
  rw [Bool.eq_iff_iff, Option.isNone_iff_eq_none, b32decode_secretChars_eq_none_iff h]
  simp [badChar]

/-- The checklist in terms of the model's checks, the charset check apart. -/
theorem generateChecklist_eq (b : Block) :
    generateChecklist b =
      [(bif b.ctrlKsrc then !legalSecretLen b.secretLen.toNat else decide (b.keyLen.toNat > 160), 1),
       (b.ctrlKsrc && badChar b, 2), (!legalDigits b.ctrlDigits, 3), ((algOf b.ctrlAlg).isNone, 4)] := by
  have hlen : decide (b.secretLen.toNat < 16 ∨ b.secretLen.toNat % 8 ≠ 0 ∨ b.secretLen.toNat > 256)
      = !legalSecretLen b.secretLen.toNat := by
    rw [Bool.eq_iff_iff, decide_eq_true_iff, Bool.not_eq_true', ← Bool.not_eq_true, legalSecretLen_iff]
    omega
  have hdigits : decide (b.ctrlDigits.toNat < 6 ∨ 8 < b.ctrlDigits.toNat) = !legalDigits b.ctrlDigits := by
    rw [Bool.eq_iff_iff, decide_eq_true_iff, Bool.not_eq_true', ← Bool.not_eq_true, legalDigits_iff_toNat]
    omega
  have halg : (b.ctrlAlg == 3) = (algOf b.ctrlAlg).isNone := by
    rw [Bool.eq_iff_iff, beq_iff_eq, Option.isNone_iff_eq_none, algOf_eq_none]
  rw [generateChecklist, hlen, hdigits, halg]

/-- A failing check on the key is the first to fail. -/
theorem firstFailing_of_generateKey_error {b : Block} {e : CommandError} (h : generateKey b = .error e) :
    firstFailing (generateChecklist b) = errorCode e := by
  rw [generateChecklist_eq]
  rcases generateKey_cases b with ⟨hk, hl, h'⟩ | ⟨hk, hl, hd, h'⟩ | ⟨_, -, -, -, h'⟩ | ⟨hk, hl, h'⟩ | ⟨-, -, h'⟩ <;>
    rw [h'] at h <;> cases h
  case inl => rw [hk, hl]; rfl
  case inr.inl => rw [hk, hl, badChar_eq (le_of_legalSecretLen hl), hd]; rfl
  case inr.inr.inr.inl => rw [hk, decide_eq_true hl]; rfl

/-- Where the checks on the key pass, those of DIGITS and ALG decide. -/
theorem firstFailing_of_generateKey_ok {b : Block} {key : List Byte} (h : generateKey b = .ok key) :
    firstFailing (generateChecklist b) =
      firstFailing [(!legalDigits b.ctrlDigits, 3), ((algOf b.ctrlAlg).isNone, 4)] := by
  rw [generateChecklist_eq]
  cases hk : b.ctrlKsrc with
  | true =>
    obtain ⟨hl, hd⟩ := (generateKey_base32_iff hk key).mp h
    rw [hl, badChar_eq (le_of_legalSecretLen hl), hd]
    rfl
  | false =>
    obtain ⟨hl, -⟩ := (generateKey_raw_iff hk key).mp h
    rw [decide_eq_false (Nat.not_lt.mpr hl)]
    rfl

/-- The error of GENERATE is the first failing check's, and there is none where every check passes (R291). -/
theorem firstFailing_generateChecklist (b : Block) :
    firstFailing (generateChecklist b) = (commit b (generateBody b)).error := by
  rcases generateBody_cases b with ⟨e, hkey, h⟩ | ⟨key, hkey, hd, h⟩ | ⟨key, hkey, hd, ha, h⟩
    | ⟨key, a, hkey, hd, ha, h⟩ <;> rw [h]
  · exact firstFailing_of_generateKey_error hkey
  · rw [firstFailing_of_generateKey_ok hkey, hd]; rfl
  · rw [firstFailing_of_generateKey_ok hkey, hd, ha]; rfl
  · rw [firstFailing_of_generateKey_ok hkey, hd, ha]; rfl

/-! ## GENERATE (R261) -/

theorem commit_error_eq_zero_iff (b : Block) (r : Except CommandError Block) :
    (commit b r).error = 0 ↔ ∃ c, r = .ok c := by
  cases r with
  | ok c => simp
  | error e => simp

theorem storeKey_base32 {b : Block} (h : b.ctrlKsrc = true) (key : List Byte) : storeKey key b = writeKey key b :=
  if_pos h

theorem storeKey_raw {b : Block} (h : b.ctrlKsrc = false) (key : List Byte) : storeKey key b = b :=
  if_neg (by simp [h])

theorem storeKey_eq (key : List Byte) (b : Block) :
    storeKey key b = { b with
      key := if b.ctrlKsrc then Buf.ofBytes 160 key else b.key
      keyLen := if b.ctrlKsrc then BitVec.ofNat 32 key.length else b.keyLen } := by
  by_cases hk : b.ctrlKsrc = true
  · rw [storeKey_base32 hk, if_pos hk, if_pos hk]
    rfl
  · rw [storeKey_raw (Bool.eq_false_iff.mpr hk), if_neg hk, if_neg hk]

theorem GenerateReady.length_key {b : Block} {key : List Byte} {a : Alg} (h : GenerateReady b key a)
    (hk : b.ctrlKsrc = true) : key.length = 5 * b.secretLen.toNat / 8 := by
  obtain ⟨-, -, hmax, hkey⟩ := h.1 hk
  rw [length_of_b32decode hkey, List.length_take, Buf.length_bytes, Nat.min_eq_left hmax]

/-- A key decoded from a secret of legal length fits KEY. -/
theorem GenerateReady.length_key_le {b : Block} {key : List Byte} {a : Alg} (h : GenerateReady b key a)
    (hk : b.ctrlKsrc = true) : key.length ≤ 160 := by
  obtain ⟨-, -, hmax, -⟩ := h.1 hk
  rw [h.length_key hk]
  omega

/-- Settles O44: the first failing check is the error of the body, which answers exactly where the operands are ready. -/
theorem generateCommandResult : Obligations.GenerateCommandResult := by
  refine fun s => ⟨?error, ?ready, ?result⟩
  case error =>
    rintro e rfl he
    rw [firstFailing_generateChecklist] at he ⊢
    rcases commit_cases s.block (generateBody s.block) with ⟨c, -, hc⟩ | ⟨e, hbody, hc⟩
    · rw [hc] at he
      exact absurd rfl he
    · rw [exec_of_bodyOf_error .generate hbody, hc]
      rfl
  case ready =>
    rw [firstFailing_generateChecklist, commit_error_eq_zero_iff]
    constructor
    · rintro ⟨c, hc⟩
      obtain ⟨key, a, hready, -⟩ := ready_of_generateBody_ok hc
      exact ⟨key, a, hready⟩
    · rintro ⟨key, a, hready⟩
      exact ⟨_, generateBody_of_ready hready⟩
  case result =>
    rintro key dg a hready rfl
    have hkeyLen : (if s.block.ctrlKsrc then BitVec.ofNat 32 (5 * s.block.secretLen.toNat / 8) else s.block.keyLen)
        = if s.block.ctrlKsrc then BitVec.ofNat 32 key.length else s.block.keyLen := by
      split
      · next hk => rw [hready.length_key hk]
      · rfl
    rw [exec_of_bodyOf_ok .generate (generateBody_of_ready hready), generateResults, storeKey_eq, hkeyLen,
      writeDigest, length_hmac, writeCode, BitVec.ofNat_toNat]
    cases a <;> rfl

/-- Equal operands give equal keys and equal checks on them. -/
theorem generateKey_congr {b c : Block} (h : SameGenerateOperands b c) : generateKey b = generateKey c := by
  obtain ⟨-, -, hksrc, -, -, hsecret, hraw⟩ := h
  unfold generateKey
  rw [← hksrc]
  split
  · next hk =>
    obtain ⟨hlen, hchars⟩ := hsecret hk
    rw [hlen, hchars]
  · next hk =>
    obtain ⟨hlen, hbytes⟩ := hraw (Bool.eq_false_iff.mpr hk)
    rw [hlen, hbytes]

theorem generateChecks_congr {b c : Block} (h : SameGenerateOperands b c) : generateChecks b = generateChecks c := by
  have hkey := generateKey_congr h
  obtain ⟨halg, hdigits, -⟩ := h
  rw [generateChecks, generateChecks, hkey, hdigits, halg]

/-- The two blocks hold the same results of GENERATE; the key is one of them at KSRC = 1. -/
def SameGenerateResults (ksrc : Bool) (b c : Block) : Prop :=
  SameDigest b c ∧ SameCode b c ∧ (ksrc = true → SameKey b c)

theorem generateResults_same {b c : Block} (h : SameGenerateOperands b c) (key : List Byte) (a : Alg) :
    SameGenerateResults b.ctrlKsrc (complete (generateResults key a b)) (complete (generateResults key a c)) := by
  obtain ⟨-, hdigits, hksrc, hhi, hlo, -⟩ := h
  rw [generateResults, generateResults, counterMessage_congr hhi hlo, hdigits]
  refine ⟨⟨rfl, rfl⟩, ⟨rfl, rfl, rfl, rfl, rfl⟩, fun hk => ?_⟩
  rw [storeKey_base32 hk, storeKey_base32 (hksrc ▸ hk)]
  exact ⟨rfl, rfl⟩

/-- Settles O26: equal operands give equal checks, and the results are computed from what these answer. -/
theorem generateIsAFunctionOfItsOperands : Obligations.GenerateIsAFunctionOfItsOperands := by
  intro s u t v h ht hv
  have hanswer : SameAnswer (SameGenerateResults s.block.ctrlKsrc) (generateBody s.block) (generateBody u.block) := by
    unfold generateBody
    rw [generateChecks_congr h]
    cases generateChecks u.block with
    | error e => rfl
    | ok r => exact generateResults_same h r.1 r.2
  exact exec_of_sameAnswer (i := .generate) hanswer ht hv

/-! ## The units in turn (R262) -/

theorem keyBytes_writeKey {k : List Byte} (h : k.length ≤ 160) (b : Block) : keyBytes (writeKey k b) = k := by
  have hlen : (BitVec.ofNat 32 k.length).toNat = k.length := Nat.mod_eq_of_lt (by omega)
  rw [keyBytes, writeKey_key, writeKey_keyLen, hlen, Buf.bytes_ofBytes, slice_padTo h]

theorem digestBytes_writeDigest {d : List Byte} (h : d.length ≤ 64) (b : Block) :
    digestBytes (writeDigest d b) = d := by
  have hlen : (BitVec.ofNat 32 d.length).toNat = d.length := Nat.mod_eq_of_lt (by omega)
  rw [digestBytes, writeDigest_digest, writeDigest_digestLen, hlen, Buf.bytes_ofBytes, slice_padTo h]

/-- On operands of GENERATE that pass every check, DECODE alone writes the key that GENERATE computes with. -/
theorem commandAlone_decode_of_ready {s : State} {key : List Byte} {a : Alg} (h : GenerateReady s.block key a)
    (hk : s.block.ctrlKsrc = true) :
    commandAlone .decode s = .next (s.withBlock (complete (writeKey key (issue 0x01#8 s.block)))) := by
  obtain ⟨-, -, hmax, hkey⟩ := h.1 hk
  exact exec_decode_ok (s := s.withBlock (issue 0x01#8 s.block)) hmax hkey

/-- HMAC and then TRUNC, each alone and without error: the digest of KEY and the counter, and its code. -/
theorem hmac_then_trunc {s : State} {a : Alg} (hlen : s.block.keyLen.toNat ≤ 160)
    (ha : algOf s.block.ctrlAlg = some a) (hd : legalDigits s.block.ctrlDigits = true) {d : List Byte}
    (hdigest : d = hmac a (keyBytes s.block) (counterMessage s.block)) :
    ∃ t₂ t₃, commandAlone .hmac s = .next t₂ ∧ t₂.block.error = 0 ∧ commandAlone .trunc t₂ = .next t₃
      ∧ t₃ = s.withBlock
          (complete (writeCode d s.block.ctrlDigits.toNat (writeDigest d (issue 0x03#8 s.block)))) := by
  have hdlen : d.length ≤ 64 ∧ BitVec.ofNat 32 d.length ≠ 0 := by
    rw [hdigest, length_hmac]
    cases a <;> decide
  obtain ⟨hfits, hsome⟩ := hdlen
  have hhmac : commandAlone .hmac s = .next (s.withBlock (complete (writeDigest d (issue 0x02#8 s.block)))) :=
    hdigest ▸ commandAlone_of_bodyOf_ok .hmac (hmacBody_ok hlen ha)
  have hbytes : digestBytes (issue 0x03#8 (complete (writeDigest d (issue 0x02#8 s.block)))) = d :=
    digestBytes_writeDigest hfits s.block
  have htrunc := commandAlone_of_bodyOf_ok .trunc
    (s := s.withBlock (complete (writeDigest d (issue 0x02#8 s.block)))) (truncBody_ok hd hsome)
  refine ⟨_, _, hhmac, rfl, htrunc, ?_⟩
  simp only [withBlock_block, encodeCode, hbytes]
  rfl

/-- GENERATE alone without error: its operands pass every check, and its results are written over the issue. -/
theorem ready_of_commandAlone_generate {s t : State} (h : commandAlone .generate s = .next t)
    (herror : t.block.error = 0) :
    ∃ key a, GenerateReady s.block key a
      ∧ t = s.withBlock (complete (generateResults key a (issue 0x05#8 s.block))) := by
  rcases exec_cases h with ⟨c, hc, rfl⟩ | ⟨e, -, rfl⟩
  · obtain ⟨key, a, hready, rfl⟩ := ready_of_generateBody_ok hc
    exact ⟨key, a, hready, rfl⟩
  · exact absurd herror (errorCode_ne_zero e)

/-- Settles O45: DECODE puts the key that GENERATE computes with into KEY, and HMAC and TRUNC compute the rest from it
as GENERATE does; at KSRC = 0 KEY holds that key already. -/
theorem generateEqualsItsUnitsInTurn : Obligations.GenerateEqualsItsUnitsInTurn := by
  intro s t h herror
  obtain ⟨key, a, hready, rfl⟩ := ready_of_commandAlone_generate h herror
  obtain ⟨hkey, hd, ha⟩ := (generateReady_iff _ _ _).mp hready
  refine ⟨fun hk => ?base32, fun hk => ?raw⟩
  case base32 =>
    have hfits := hready.length_key_le hk
    have hkeyLen : (BitVec.ofNat 32 key.length).toNat ≤ 160 := (Nat.mod_le _ _).trans hfits
    have hbytes : keyBytes (complete (writeKey key (issue 0x01#8 s.block))) = key := keyBytes_writeKey hfits s.block
    obtain ⟨t₂, t₃, hhmac, herror₂, htrunc, ht₃⟩ := hmac_then_trunc
      (s := s.withBlock (complete (writeKey key (issue 0x01#8 s.block)))) (a := a) hkeyLen ha hd
      (d := hmac a key (counterMessage s.block)) (by rw [withBlock_block, hbytes]; rfl)
    refine ⟨_, t₂, t₃, commandAlone_decode_of_ready hready hk, rfl, hhmac, herror₂, htrunc, ?_⟩
    rw [ht₃, generateResults, storeKey_base32 (b := issue 0x05#8 s.block) hk]
    rfl
  case raw =>
    obtain ⟨hlen, rfl⟩ := (generateKey_raw_iff hk key).mp hkey
    obtain ⟨t₂, t₃, hhmac, herror₂, htrunc, ht₃⟩ := hmac_then_trunc hlen ha hd rfl
    refine ⟨t₂, t₃, hhmac, herror₂, htrunc, ?_⟩
    rw [ht₃, generateResults, storeKey_raw (b := issue 0x05#8 s.block) hk]
    rfl

/-! ## VERIFY (R265, R266) -/

theorem writeVerdict_invalid {b : Block} (h : ¬CandidateIsCode b) : writeVerdict b = { b with verdict := 2 } := by
  rw [writeVerdict, if_neg (mt (codeMatches_iff b).mp h)]
  rfl

theorem writeVerdict_valid {b : Block} (h : CandidateIsCode b) : writeVerdict b = { b with verdict := 1 } := by
  rw [writeVerdict, if_pos ((codeMatches_iff b).mpr h)]
  rfl

theorem verifyBody_of_error {b : Block} {e : CommandError} (h : generateBody b = .error e) :
    verifyBody b = .error e := by
  rw [verifyBody, h]

theorem verifyBody_of_ok {b c : Block} (h : generateBody b = .ok c) : verifyBody b = .ok (writeVerdict c) := by
  rw [verifyBody, h]

/-- Settles O46: both commands run GENERATE's body, and the comparison on its block gives VERIFY's verdict. -/
theorem verifyIsGenerateThenCompare : Obligations.VerifyIsGenerateThenCompare := by
  intro s
  cases h : generateBody s.block with
  | error e =>
    exact ⟨_, _, exec_of_bodyOf_error .generate h, exec_of_bodyOf_error .verify (verifyBody_of_error h),
      fun _ => rfl, fun herror => absurd herror (errorCode_ne_zero e),
      fun herror => absurd herror (errorCode_ne_zero e)⟩
  | ok c =>
    refine ⟨_, _, exec_of_bodyOf_ok .generate h, exec_of_bodyOf_ok .verify (verifyBody_of_ok h),
      fun herror => absurd rfl herror, fun _ hmatch => ?valid, fun _ hmatch => ?invalid⟩
    case valid =>
      rw [writeVerdict_valid (b := c) hmatch]
      rfl
    case invalid =>
      rw [writeVerdict_invalid (b := c) hmatch]
      rfl

theorem take_bytes_eq_iff {m n : Nat} (hn : n ≤ m) (b c : Buf m) :
    b.bytes.take n = c.bytes.take n ↔ ∀ i < n, b.byte i = c.byte i := by
  rw [List.ext_getElem_iff]
  simp only [List.length_take, Buf.length_bytes, Nat.min_eq_left hn, List.getElem_take, true_and]
  refine forall_congr' fun i => ⟨fun h hi => ?_, fun h hi _ => ?_⟩
  · rw [Buf.byte_eq_getElem b i (by omega), Buf.byte_eq_getElem c i (by omega), h hi hi]
  · rw [← Buf.byte_eq_getElem b i (by omega), ← Buf.byte_eq_getElem c i (by omega), h hi]

/-- With a code in the registers, the comparison is that of the lengths and of the strings. -/
theorem candidateIsCode_iff {b : Block} (h : legalCodeLen b.codeLen = true) :
    CandidateIsCode b ↔ b.candLen = b.codeLen
      ∧ b.cand.bytes.take b.codeLen.toNat = b.codeAscii.bytes.take b.codeLen.toNat := by
  have hlen := (legalCodeLen_iff _).mp h
  rw [take_bytes_eq_iff (toNat_le_eight_of_eq hlen), CandidateIsCode]
  exact and_iff_right hlen

theorem writeVerdict_eq_one_iff (b : Block) : (writeVerdict b).verdict = 1 ↔ CandidateIsCode b := by
  rw [writeVerdict_verdict, ← codeMatches_iff]
  cases codeMatches b <;> decide

theorem generateResults_candidate (key : List Byte) (a : Alg) (b : Block) :
    (generateResults key a b).candLen = b.candLen ∧ (generateResults key a b).cand = b.cand := by
  simp [generateResults]

/-- Settles O47: GENERATE leaves the candidate and writes a code of DIGITS digits, which the verdict compares. -/
theorem verifyAcceptsExactlyTheGeneratedCode : Obligations.VerifyAcceptsExactlyTheGeneratedCode := by
  intro s key a hready
  have hbody := generateBody_of_ready hready
  obtain ⟨-, hd, -⟩ := (generateReady_iff _ _ _).mp hready
  have hmatch := candidateIsCode_iff (b := generateResults key a s.block) (legalCodeLen_of_legalDigits hd)
  obtain ⟨hcandLen, hcand⟩ := generateResults_candidate key a s.block
  rw [hcandLen, hcand] at hmatch
  refine ⟨_, _, exec_of_bodyOf_ok .generate hbody, exec_of_bodyOf_ok .verify (verifyBody_of_ok hbody), rfl, rfl, rfl,
    ?verdict, ?accepts, fun hne => ?length⟩
  case verdict => exact (writeVerdict_outcome _).symm.imp_left And.left
  case accepts => exact (writeVerdict_eq_one_iff _).trans hmatch
  case length =>
    have hno : ¬CandidateIsCode (generateResults key a s.block) := by
      rw [hmatch]
      rintro ⟨hlen, -⟩
      refine hne ?_
      rw [hlen]
      exact Nat.mod_eq_of_lt (by omega)
    rw [writeVerdict_invalid hno]
    rfl

/-! ## ZEROIZE (R270) -/

/-- Without a code no candidate is one. -/
theorem not_candidateIsCode_of_no_code {b : Block} (h : b.codeLen = 0) : ¬CandidateIsCode b := by
  rintro ⟨hlen, -⟩
  rw [h] at hlen
  exact absurd hlen (by decide)

/-- Settles O48: the cleared block is the reset block but for what stays, with neither a digest nor a code. -/
theorem zeroizeClearsEveryDataRegister : Obligations.ZeroizeClearsEveryDataRegister := by
  intro s
  refine ⟨_, exec_of_bodyOf_ok .zeroize rfl, rfl, fun hlow hhigh => ?trunc, ?compare⟩
  case trunc =>
    have hlegal := (legalDigits_iff_toNat _).mpr ⟨hlow, hhigh⟩
    exact ⟨_, commandAlone_of_bodyOf_error .trunc (truncBody_noDigest hlegal rfl), rfl⟩
  case compare =>
    refine ⟨_, commandAlone_of_bodyOf_ok .compare rfl, rfl, ?_⟩
    rw [writeVerdict_invalid (not_candidateIsCode_of_no_code rfl)]
    rfl

/-! ## Illegal codes (R104, R275) -/

/-- The codes without a command select the illegal rows, and a range row carries its code. -/
theorem decodeCode_illegal {c : BitVec 8} (h : c = 0 ∨ 8 ≤ c.toNat) :
    decodeCode c = .illegal00 ∨ decodeCode c = .illegal08 c ∨ decodeCode c = .illegal10 c
      ∨ decodeCode c = .illegal20 c ∨ decodeCode c = .illegal40 c ∨ decodeCode c = .illegal80 c := by
  revert c; decide

/-- Every illegal command runs the one body that raises IllegalCommand. -/
theorem exec_illegal {i : Instr} {c : BitVec 8}
    (h : i = .illegal00 ∨ i = .illegal08 c ∨ i = .illegal10 c ∨ i = .illegal20 c ∨ i = .illegal40 c
      ∨ i = .illegal80 c) (s : State) : exec i s = .next (s.withBlock (raise .illegalCommand s.block)) := by
  rcases h with rfl | rfl | rfl | rfl | rfl | rfl <;> rfl

/-- Settles O49: the commands of the illegal codes are the illegal terms. -/
theorem illegalCodesRaiseIllegalCommand : Obligations.IllegalCodesRaiseIllegalCommand :=
  fun s => ⟨fun _ hc => exec_illegal (decodeCode_illegal hc) s, fun _ _ hi => exec_illegal hi s⟩

end Sys2Proof.Machine
end

section
/-! PROOFS. Exceptions: an error is precise, reports the first failing check, and is left by STATUS or by the next
issue; IRQ follows the completions; and no step stops the machine. -/

namespace Sys2Proof.Machine

/-! ## Bus writes to CTRL, CMD and STATUS (R34, R36, R46) -/

/-- STATUS takes a write in the same way whether the block is busy or not (R83). -/
theorem busWrite_status (v : Word) (b : Block) : busWrite 0x010 v b = clearStatus v b := by
  cases hb : b.busy with
  | false => exact busWrite_idle hb 0x010 v
  | true => exact busWrite_busy hb 0x010 v

theorem busWrite_cmd {b : Block} (hb : b.busy = false) (v : Word) :
    busWrite 0x00C v b = issue (v.extractLsb' 0 8) b := busWrite_idle hb 0x00C v

theorem busWrite_ctrl {b : Block} (hb : b.busy = false) (v : Word) : busWrite 0x008 v b = writeCtrl v b :=
  busWrite_idle hb 0x008 v

/-! ## The first failing check (R291) -/

/-- The error a command reports is that of its body's completion. -/
theorem exec_error {i : Instr} {s t : State} (h : exec i s = .next t) :
    t.block.error = (commit s.block (bodyOf i s.block)).error := by
  rw [exec_next h, withBlock_block]

theorem decodeBody_firstFailing (b : Block) :
    (commit b (decodeBody b)).error = firstFailing [(decide (b.secretLen.toNat > 256), 1), (badChar b, 2)] := by
  rcases decodeBody_cases b with ⟨hlong, h⟩ | ⟨hlen, hbad, h⟩ | ⟨k, hlen, hgood, h⟩ <;> rw [h]
  · rw [decide_eq_true hlong]; rfl
  · rw [decide_eq_false (Nat.not_lt.mpr hlen), badChar_eq hlen, hbad]; rfl
  · rw [decide_eq_false (Nat.not_lt.mpr hlen), badChar_eq hlen, hgood]; rfl

/-- ALG selects no algorithm exactly at 3 (R181). -/
theorem ctrlAlg_beq_three (a : BitVec 2) : (a == 3) = (algOf a).isNone := by
  rw [Bool.eq_iff_iff, beq_iff_eq, Option.isNone_iff_eq_none, algOf_eq_none]

theorem hmacBody_firstFailing (b : Block) :
    (commit b (hmacBody b)).error = firstFailing [(decide (b.keyLen.toNat > 160), 1), (b.ctrlAlg == 3, 4)] := by
  rw [ctrlAlg_beq_three]
  rcases hmacBody_cases b with ⟨hlong, h⟩ | ⟨hlen, halg, h⟩ | ⟨a, hlen, halg, h⟩ <;> rw [h]
  · rw [decide_eq_true hlong]; rfl
  · rw [decide_eq_false (Nat.not_lt.mpr hlen), halg]; rfl
  · rw [decide_eq_false (Nat.not_lt.mpr hlen), halg]; rfl

theorem illegalDigits_eq (d : BitVec 4) : decide (d.toNat < 6 ∨ 8 < d.toNat) = !legalDigits d := by
  revert d; decide

theorem truncBody_firstFailing (b : Block) :
    (commit b (truncBody b)).error =
      firstFailing [(decide (b.ctrlDigits.toNat < 6 ∨ 8 < b.ctrlDigits.toNat), 3), (b.digestLen == 0, 7)] := by
  rw [illegalDigits_eq]
  rcases truncBody_cases b with ⟨hd, h⟩ | ⟨hd, hnone, h⟩ | ⟨hd, hsome, h⟩ <;> rw [h, hd]
  · rfl
  · rw [hnone]; rfl
  · rw [beq_eq_false_iff_ne.mpr hsome]; rfl

/-- VERIFY makes GENERATE's checks and no other, so it reports GENERATE's error (R265). -/
theorem verifyBody_error_eq (b : Block) : (commit b (verifyBody b)).error = (commit b (generateBody b)).error := by
  rcases verifyBody_cases b with ⟨e, hg, hv⟩ | ⟨c, hg, hv⟩
  · rw [hg, hv]
  · rw [hg, hv]; rfl

/-- Settles O21: each body's completion reports the first failing check of its row of the table. -/
theorem firstFailingCheckIsReported : Obligations.FirstFailingCheckIsReported := by
  refine fun s => ⟨fun t h => ?decode, fun t h => ?hmac, fun t h => ?trunc, fun t h => ?errorFree,
    fun t h => ?composite, fun c t hc h => ?illegal⟩
  case decode => exact (exec_error h).trans (decodeBody_firstFailing s.block)
  case hmac => exact (exec_error h).trans (hmacBody_firstFailing s.block)
  case trunc => exact (exec_error h).trans (truncBody_firstFailing s.block)
  case errorFree => rcases h with h | h <;> exact exec_error h
  case composite =>
    rw [firstFailing_generateChecklist]
    rcases h with h | h
    · exact exec_error h
    · exact (exec_error h).trans (verifyBody_error_eq s.block)
  case illegal =>
    rw [exec_illegal (decodeCode_illegal hc)] at h
    cases h
    rfl

/-! ## An error is precise (R292) -/

/-- A command that reports an error raises it over the old block. -/
theorem exec_raises {i : Instr} {s t : State} (h : exec i s = .next t) (herror : t.block.error ≠ 0) :
    ∃ e, t = s.withBlock (raise e s.block) := by
  rcases exec_cases h with ⟨c, -, rfl⟩ | ⟨e, -, rfl⟩
  · exact absurd rfl herror
  · exact ⟨e, rfl⟩

/-- A command issued and completed with an error raises it over the issue. -/
theorem commandAlone_raises {i : Instr} {s t : State} (h : commandAlone i s = .next t) (herror : t.block.error ≠ 0) :
    ∃ e, t = s.withBlock (raise e (issue (encodeCode i) s.block)) :=
  exec_raises (s := s.withBlock (issue (encodeCode i) s.block)) h herror

/-- Settles O20: the raise writes the four fields, and over an issue it leaves the VERDICT that the issue cleared. -/
theorem errorIsPrecise : Obligations.ErrorIsPrecise := by
  refine ⟨fun i s t h herror => ?fields, fun i s t h herror => ?verdict⟩
  case fields =>
    obtain ⟨e, rfl⟩ := exec_raises h herror
    rfl
  case verdict =>
    obtain ⟨e, rfl⟩ := commandAlone_raises h herror
    rfl

/-! ## Returning from an error (R294) -/

/-- The next issue of the same command undoes all that an error wrote. -/
theorem issue_raise_issue (c : BitVec 8) (e : CommandError) (b : Block) :
    issue c (raise e (issue c b)) = issue c b := rfl

/-- After an error the same command alone does again what it did. -/
theorem commandAlone_after_error {i : Instr} {s t : State} (h : commandAlone i s = .next t)
    (herror : t.block.error ≠ 0) : commandAlone i t = commandAlone i s := by
  obtain ⟨e, rfl⟩ := commandAlone_raises h herror
  rw [commandAlone, withBlock_block, issue_raise_issue]
  rfl

/-- DONE and ERR are bits 1 and 2 of STATUS, and the word that clears them leaves WBUSY (R36). -/
theorem clearStatus_done_err (b : Block) : clearStatus 0x00000006#32 b = { b with done := false, err := false } := by
  simp [clearStatus]

/-- Settles O22: the two ways back, and the issue over an error meets the operands of the first issue. -/
theorem errorIsClearedByStatusOrIssueAndRepeats : Obligations.ErrorIsClearedByStatusOrIssueAndRepeats := by
  refine ⟨fun b => ?status, fun b v hb => ?issue, fun i s t u h herror hu => ?repeats⟩
  case status => exact (busWrite_status _ b).trans (clearStatus_done_err b)
  case issue =>
    rw [busWrite_cmd hb]
    exact ⟨rfl, rfl, rfl, rfl⟩
  case repeats =>
    rw [commandAlone_after_error h herror, h] at hu
    cases hu
    rfl

/-! ## IRQ (R50, R300) -/

/-- IRQ has risen by a CTRL write that enables it over a DONE that already stands. -/
def EnabledOverDone (b c : Block) : Prop := b.ctrlIe = false ∧ b.done = true ∧ c.ctrlIe = true

theorem irq_clearStatus_le {v : Word} {b : Block} (h : irq (clearStatus v b) = true) : irq b = true := by
  simp only [irq, clearStatus_ctrlIe, clearStatus_done, Bool.and_eq_true] at h ⊢
  obtain ⟨hie, hdone, -⟩ := h
  exact ⟨hie, hdone⟩

theorem irq_clearStatus_of_done {v : Word} (h : v.getLsbD 1 = true) (b : Block) : irq (clearStatus v b) = false := by
  rw [irq, clearStatus_done, h, Bool.not_true, Bool.and_false, Bool.and_false]

theorem irq_writeCtrl (v : Word) (b : Block) : irq (writeCtrl v b) = (v.getLsbD 9 && b.done) := rfl

theorem irq_issue (c : BitVec 8) (b : Block) : irq (issue c b) = false := Bool.and_false _

theorem writeReg_raises_irq {v : Word} {b : Block} {r : Reg} (hb : irq b = false)
    (h : irq (writeReg v b r) = true) : EnabledOverDone b (writeReg v b r) := by
  cases r
  case ctrl =>
    obtain ⟨hie, hdone⟩ : v.getLsbD 9 = true ∧ b.done = true := Bool.and_eq_true_iff.mp h
    refine ⟨?_, hdone, hie⟩
    rwa [irq, hdone, Bool.and_true] at hb
  case cmd => exact absurd ((irq_issue _ b).symm.trans h) Bool.false_ne_true
  case status => exact absurd (hb.symm.trans (irq_clearStatus_le h)) Bool.false_ne_true
  all_goals exact absurd (hb.symm.trans h) Bool.false_ne_true

theorem busWrite_raises_irq {off : Nat} {v : Word} {b : Block} (hb : irq b = false)
    (h : irq (busWrite off v b) = true) : EnabledOverDone b (busWrite off v b) := by
  cases hbusy : b.busy with
  | false =>
    rw [busWrite_idle hbusy] at h ⊢
    exact writeReg_raises_irq hb h
  | true =>
    rw [busWrite_busy hbusy] at h
    split at h
    · exact absurd (hb.symm.trans (irq_clearStatus_le h)) Bool.false_ne_true
    · exact absurd (hb.symm.trans h) Bool.false_ne_true

theorem hostTurn_raises_irq {s : State} (hs : irq s.block = false) (h : irq (hostTurn s).block = true) :
    EnabledOverDone s.block (hostTurn s).block := by
  obtain ⟨-, -, hsame | ⟨addr, v, rest, off, -, -, -, -, hwrite⟩⟩ := hostTurn_cases s
  · rw [hsame, hs] at h
    cases h
  · rw [hwrite] at h ⊢
    exact busWrite_raises_irq hs h

/-- The reset input does not raise IRQ: CTRL.IE is 0 in reset (R320). -/
theorem irq_resetTurn {a : Bool} {s : State} (hs : irq s.block = false) : irq (resetTurn a s).block = false := by
  cases a with
  | true => rfl
  | false => exact hs

/-- A completion sets DONE and keeps IE, with or without an error. -/
theorem irq_exec {i : Instr} {s t : State} (h : exec i s = .next t) : irq t.block = s.block.ctrlIe := by
  have hie : t.block.ctrlIe = s.block.ctrlIe := by
    rcases exec_cases h with ⟨c, hc, rfl⟩ | ⟨e, -, rfl⟩
    · obtain ⟨-, -, -, hIe, -⟩ := bodyOf_frame hc
      exact hIe
    · rfl
  rw [irq, exec_done h, hie, Bool.and_true]

/-- Settles O17: of the four things a step can be, only a completion and a host's CTRL write raise IRQ. -/
theorem irqFollowsCompletion : Obligations.IrqFollowsCompletion := by
  refine ⟨fun s t hstep hs ht => ?rises, fun i s t h => irq_exec h, fun b v hv => ?status,
    fun b v hb => ?issue, fun b v hb hv => ?disable⟩
  case rises =>
    obtain ⟨turns, h | ⟨hbusy, -, h⟩ | h | ⟨a, h⟩⟩ := step_cases s <;> rw [h] at hstep
    · cases hstep
      exact .inr (hostTurn_raises_irq (s := s.withSchedule turns) hs ht)
    · exact .inl ⟨hbusy, turns, hstep⟩
    · cases hstep
      exact absurd (hs.symm.trans ht) Bool.false_ne_true
    · cases hstep
      exact absurd ((irq_resetTurn (s := s.withSchedule turns) hs).symm.trans ht) Bool.false_ne_true
  case status => rw [busWrite_status, irq_clearStatus_of_done hv]
  case issue => rw [busWrite_cmd hb, irq_issue]
  case disable =>
    rw [busWrite_ctrl hb, irq_writeCtrl, hv]
    exact ⟨rfl, rfl⟩

/-! ## Idle steps, and no step that stops (R293, R308) -/

theorem hostTurn_of_no_program {s : State} (h : s.program = []) : hostTurn s = s := by rw [hostTurn, h]

/-- A scheduled turn of the engine with no command in progress only leaves the schedule. -/
theorem step_of_idle_engine {s : State} {turns : List Turn} (hb : s.block.busy = false)
    (hs : s.schedule = .engine :: turns) : step s = .next (s.withSchedule turns) := by
  have hturn : step s = engineTurn (s.withSchedule turns) := by
    simp only [step, takeTurn, hs]
    rfl
  rw [hturn, engineTurn, withSchedule_block, hb]
  rfl

theorem withSchedule_self {s : State} {turns : List Turn} (h : s.schedule = turns) : s.withSchedule turns = s := by
  rw [← h]; rfl

/-- Settles O18: the host has no statement, and the engine no command. -/
theorem idleBlockKeepsEveryRegister : Obligations.IdleBlockKeepsEveryRegister := by
  intro s hb hp
  have hhost : ∀ turns, hostTurn (s.withSchedule turns) = s.withSchedule turns := fun turns =>
    hostTurn_of_no_program (s := s.withSchedule turns) hp
  refine ⟨fun hs => ?_, fun turns hs => ?_⟩
  · rw [step_of_host_turn (.inr ⟨hs, rfl, hb⟩), hhost, withSchedule_self hs]
  · rcases hs with hs | hs
    · rw [step_of_host_turn (.inl hs), hhost]
    · exact step_of_idle_engine hb hs

/-- Settles O52: each of the four things a step can be answers a next state, a command's completion included. -/
theorem noStepStops : Obligations.NoStepStops := by
  intro s
  obtain ⟨turns, h | ⟨-, -, h⟩ | h | ⟨a, h⟩⟩ := step_cases s
  · exact ⟨_, h⟩
  · exact ⟨_, h.trans (exec_eq _ _)⟩
  · exact ⟨_, h⟩
  · exact ⟨_, h⟩

end Sys2Proof.Machine
end

section
/-! PROOFS. Reset and hazards: what reset leaves to be read, what the steps during reset do, how long the results stand,
and that a command in progress ends. -/

namespace Sys2Proof.Machine

/-! ## The reset values (R320) -/

theorem Buf.word_zero (n k : Nat) : (Buf.zero n).word k = 0#32 := by
  simp only [Buf.word, Buf.byte_zero]
  rfl

/-- The constants and CTRL apart, every register reads 0 after reset. -/
theorem readReg_reset {r : Reg} (hid : r ≠ .id) (hversion : r ≠ .version) (hctrl : r ≠ .ctrl)
    (hparams : r ≠ .params) : readReg Block.reset r = 0#32 := by
  cases r
  case id => exact absurd rfl hid
  case version => exact absurd rfl hversion
  case ctrl => exact absurd rfl hctrl
  case params => exact absurd rfl hparams
  case codeAscii k => exact Buf.word_zero 8 k
  case cand k => exact Buf.word_zero 8 k
  case digest k => exact Buf.word_zero 64 k
  case secret k => exact Buf.word_zero 256 k
  case key k => exact Buf.word_zero 160 k
  all_goals rfl

/-- Settles O5: the four registers that do not read 0 at their own offsets, and the rest by `readReg_reset`. -/
theorem resetStateReadsAsSpecified : Obligations.ResetStateReadsAsSpecified := by
  refine ⟨fun off hw => ?_, rfl, rfl, rfl, rfl, rfl, rfl, rfl, rfl, rfl, rfl⟩
  split_ifs with hid hversion hctrl hparams
  · rw [hid]; rfl
  · rw [hversion]; rfl
  · rw [hctrl]; rfl
  · rw [hparams]; rfl
  · exact readReg_reset (regAt_ne_of_ne rfl hw hid) (regAt_ne_of_ne rfl hw hversion) (regAt_ne_of_ne rfl hw hctrl)
      (regAt_ne_of_ne rfl hw hparams)

/-- Settles O50: the block's invariant at its reset values, which reset asserted would hold as well. -/
theorem resetMeetsTheInvariant : Obligations.ResetMeetsTheInvariant := ⟨inv_reset, fun _ => rfl⟩

/-! ## Steps of the reset input and during reset (R321) -/

/-- A scheduled level of the reset input is the next step, whatever the state. -/
theorem step_of_resetPin {s : State} {a : Bool} {turns : List Turn} (hs : s.schedule = .resetPin a :: turns) :
    step s = .next (resetTurn a (s.withSchedule turns)) := by
  simp only [step, takeTurn, hs]
  rfl

/-- With the host scheduled next, a step performs its statement, whatever the reset input's level. -/
theorem step_of_host_stmt {s : State} {stmt : HostStmt} {rest : List HostStmt} {turns : List Turn}
    (hs : s.schedule = .host :: turns) (hp : s.program = stmt :: rest) :
    step s = .next (performStmt stmt rest (s.withSchedule turns)) := by
  have hp' : (s.withSchedule turns).program = stmt :: rest := hp
  rw [step_of_host_turn (.inl hs), hostTurn, hp']

theorem writeResponse_in_reset {s : State} (hr : s.resetAsserted = true) (addr : Nat) (size : AccessSize) :
    writeResponse addr size s = .unanswered := by
  unfold writeResponse
  cases offsetOf addr with
  | none => rfl
  | some off => exact if_pos hr

theorem writeEffect_in_reset {s : State} (hr : s.resetAsserted = true) (addr : Nat) (size : AccessSize) (v : Word) :
    writeEffect addr size v s = s.block := by
  rcases writeEffect_cases addr size v s with h | ⟨off, -, hreleased, -⟩
  · exact h
  · exact absurd (hr.symm.trans hreleased) Bool.false_ne_true.symm

/-- While reset is asserted a read is taken off the program without an answer. -/
theorem step_read_in_reset {s : State} {addr : Nat} {size : AccessSize} {rest : List HostStmt} {turns : List Turn}
    (hr : s.resetAsserted = true) (hs : s.schedule = .host :: turns) (hp : s.program = .read addr size :: rest) :
    step s = .next { s with program := rest, schedule := turns, responses := .unanswered :: s.responses } := by
  have hr' : (s.withSchedule turns).resetAsserted = true := hr
  rw [step_of_host_stmt hs hp, performStmt, readResponse_in_reset hr']
  rfl

/-- While reset is asserted a write is taken off the program without an answer, and the block stays. -/
theorem step_write_in_reset {s : State} {addr : Nat} {size : AccessSize} {v : Word} {rest : List HostStmt}
    {turns : List Turn} (hr : s.resetAsserted = true) (hs : s.schedule = .host :: turns)
    (hp : s.program = .write addr size v :: rest) :
    step s = .next { s with program := rest, schedule := turns, responses := .unanswered :: s.responses } := by
  have hr' : (s.withSchedule turns).resetAsserted = true := hr
  rw [step_of_host_stmt hs hp, performStmt, writeResponse_in_reset hr', writeEffect_in_reset hr']
  rfl

/-- Settles O6: the reset input's turns at both levels, and the turns of the engine and the host in between. -/
theorem resetAbandonsTheCommand : Obligations.ResetAbandonsTheCommand := by
  refine ⟨fun s turns hs => step_of_resetPin hs, fun s turns hr hb => ⟨fun hs => ?engine, fun hs => step_of_resetPin hs,
    fun addr size rest hs hp => step_read_in_reset hr hs hp, fun addr size v rest hs hp => step_write_in_reset hr hs hp,
    fun rest hs hp => step_wait_in_reset hr hp (.inl hs)⟩⟩
  case engine =>
    have hidle : s.block.busy = false := by rw [hb]; rfl
    exact step_of_idle_engine hidle hs

/-! ## How long the results stand (R332) -/

/-- The digest, the code and VERDICT are the same in both blocks. -/
def SameResults (b c : Block) : Prop := SameDigest b c ∧ SameCode b c ∧ c.verdict = b.verdict

theorem sameResults_refl (b : Block) : SameResults b b := ⟨⟨rfl, rfl⟩, ⟨rfl, rfl, rfl, rfl, rfl⟩, rfl⟩

/-- A bus write keeps VERDICT, unless it is the write to CMD of an idle block, which issues (R46). -/
theorem busWrite_verdict {off : Nat} (v : Word) {b : Block} (hw : WordOffset off) :
    (busWrite off v b).verdict = b.verdict ∨ (b.busy = false ∧ off = 0x00C) := by
  cases hb : b.busy with
  | true =>
    rw [busWrite_sameButFlags hb off v]
    exact .inl rfl
  | false =>
    by_cases hcmd : off = 0x00C
    · exact .inr ⟨rfl, hcmd⟩
    · rw [busWrite_idle hb]
      obtain ⟨-, -, -, hverdict⟩ := writeReg_sequencer v b _ (regAt_ne_of_ne (r := .cmd) rfl hw hcmd)
      exact .inl hverdict

/-- The host's turn keeps the results, or it is the issue of a command. -/
theorem hostTurn_results (s : State) :
    SameResults s.block (hostTurn s).block
      ∨ (s.block.busy = false ∧ ∃ v rest, s.program = writeStmt 0x00C v :: rest
          ∧ (hostTurn s).block = issue (v.extractLsb' 0 8) s.block) := by
  obtain ⟨-, -, hsame | ⟨addr, v, rest, off, hprog, haddr, -, hw, hwrite⟩⟩ := hostTurn_cases s
  · exact .inl (hsame ▸ sameResults_refl s.block)
  · rw [hwrite]
    rcases busWrite_verdict v (b := s.block) hw with hverdict | ⟨hidle, rfl⟩
    · obtain ⟨hdigest, hcode⟩ := busWrite_sameResults off v s.block
      exact .inl ⟨hdigest, hcode, hverdict⟩
    · obtain ⟨rfl, -⟩ := offsetOf_eq_some haddr
      exact .inr ⟨hidle, v, rest, hprog, busWrite_cmd hidle v⟩

/-- What a step can do to the results where it does not end in reset: nothing, an issue, or a completion. -/
theorem step_results {s t : State} (hstep : step s = .next t)
    (hreset : ¬(t.resetAsserted = true ∧ t.block = Block.reset)) :
    SameResults s.block t.block
      ∨ (s.block.busy = false ∧ ∃ v rest, s.program = writeStmt 0x00C v :: rest
          ∧ t.block = issue (v.extractLsb' 0 8) s.block)
      ∨ (s.block.busy = true ∧ ∃ turns, exec (pendingInstr s.block) (s.withSchedule turns) = .next t) := by
  obtain ⟨turns, h | ⟨hbusy, -, h⟩ | h | ⟨a, h⟩⟩ := step_cases s <;> rw [h] at hstep
  · cases hstep
    exact (hostTurn_results (s.withSchedule turns)).imp_right .inl
  · exact .inr (.inr ⟨hbusy, turns, hstep⟩)
  · cases hstep
    exact .inl (sameResults_refl s.block)
  · cases hstep
    cases a with
    | true => exact absurd ⟨rfl, rfl⟩ hreset
    | false => exact .inl (sameResults_refl s.block)

/-- The commands that write the digest. -/
theorem exec_changes_digest {i : Instr} {s t : State} (h : exec i s = .next t)
    (hchange : ¬SameDigest s.block t.block) : i = .hmac ∨ i = .generate ∨ i = .verify ∨ i = .zeroize := by
  rcases exec_cases h with ⟨c, hc, rfl⟩ | ⟨e, -, rfl⟩
  · rcases bodyOf_ok hc with ⟨-, k, -, -, rfl⟩ | ⟨hi, -⟩ | ⟨-, -, -, rfl⟩ | ⟨-, rfl⟩ | ⟨hi, -⟩ | ⟨hi, -⟩ | ⟨hi, -⟩
    · exact absurd ⟨rfl, rfl⟩ hchange
    · exact .inl hi
    · exact absurd ⟨rfl, rfl⟩ hchange
    · exact absurd ⟨rfl, rfl⟩ hchange
    · exact .inr (.inl hi)
    · exact .inr (.inr (.inl hi))
    · exact .inr (.inr (.inr hi))
  · exact absurd ⟨rfl, rfl⟩ hchange

/-- The commands that write the code. -/
theorem exec_changes_code {i : Instr} {s t : State} (h : exec i s = .next t)
    (hchange : ¬SameCode s.block t.block) : i = .trunc ∨ i = .generate ∨ i = .verify ∨ i = .zeroize := by
  rcases exec_cases h with ⟨c, hc, rfl⟩ | ⟨e, -, rfl⟩
  · rcases bodyOf_ok hc with ⟨-, k, -, -, rfl⟩ | ⟨-, a, -, -, rfl⟩ | ⟨hi, -⟩ | ⟨-, rfl⟩ | ⟨hi, -⟩ | ⟨hi, -⟩ | ⟨hi, -⟩
    · exact absurd ⟨rfl, rfl, rfl, rfl, rfl⟩ hchange
    · exact absurd ⟨rfl, rfl, rfl, rfl, rfl⟩ hchange
    · exact .inl hi
    · exact absurd ⟨rfl, rfl, rfl, rfl, rfl⟩ hchange
    · exact .inr (.inl hi)
    · exact .inr (.inr (.inl hi))
    · exact .inr (.inr (.inr hi))
  · exact absurd ⟨rfl, rfl, rfl, rfl, rfl⟩ hchange

theorem writeVerdict_verdict_ne_zero (b : Block) : (writeVerdict b).verdict ≠ 0 := by
  rw [writeVerdict_verdict]
  split <;> decide

/-- A command that changes VERDICT is a comparison, which sets it, or ZEROIZE, which clears it. -/
theorem exec_changes_verdict {i : Instr} {s t : State} (h : exec i s = .next t)
    (hchange : t.block.verdict ≠ s.block.verdict) :
    (t.block.verdict ≠ 0 ∧ (i = .compare ∨ i = .verify)) ∨ (t.block.verdict = 0 ∧ i = .zeroize) := by
  rcases exec_cases h with ⟨c, hc, rfl⟩ | ⟨e, -, rfl⟩
  · rcases bodyOf_ok hc with ⟨-, k, -, -, rfl⟩ | ⟨-, a, -, -, rfl⟩ | ⟨-, -, -, rfl⟩ | ⟨hi, rfl⟩
      | ⟨-, k, a, -, -, -, rfl⟩ | ⟨hi, k, a, -, -, -, rfl⟩ | ⟨hi, rfl⟩
    · exact absurd rfl hchange
    · exact absurd rfl hchange
    · exact absurd rfl hchange
    · exact .inl ⟨writeVerdict_verdict_ne_zero _, .inl hi⟩
    · exact absurd (by simp [generateResults]) hchange
    · exact .inl ⟨writeVerdict_verdict_ne_zero _, .inr hi⟩
    · exact .inr ⟨rfl, hi⟩
  · exact absurd rfl hchange

/-- PENDING holds the code of the command it selects. -/
theorem pending_of_pendingInstr {b : Block} {i : Instr} (h : pendingInstr b = i) : b.pending = encodeCode i := by
  rw [← h, pendingInstr, encodeCode_decodeCode]

/-- Settles O53: a step that does not reset keeps the results, or issues, which changes VERDICT alone, or completes, by
one of the commands that write what has changed. -/
theorem resultsStayUntilRewritten : Obligations.ResultsStayUntilRewritten := by
  intro s t hstep hreset
  rcases step_results hstep hreset with ⟨hdigest, hcode, hverdict⟩ | ⟨hidle, v, rest, hprog, hissue⟩
    | ⟨hbusy, turns, hexec⟩
  case inl =>
    exact ⟨fun h => absurd hdigest h, fun h => absurd hcode h, fun h => absurd hverdict h, fun h => absurd hverdict h⟩
  case inr.inl =>
    rw [hissue]
    exact ⟨fun h => absurd ⟨rfl, rfl⟩ h, fun h => absurd ⟨rfl, rfl, rfl, rfl, rfl⟩ h, fun _ h => absurd rfl h,
      fun _ _ => .inl ⟨hidle, v, rest, hprog, rfl⟩⟩
  case inr.inr =>
    have hdone : t.block.busy = false := exec_busy hexec
    refine ⟨fun h => ⟨hbusy, hdone, ?_⟩, fun h => ⟨hbusy, hdone, ?_⟩, fun h hne => ⟨hbusy, hdone, ?_⟩,
      fun h hzero => .inr ⟨hbusy, hdone, ?_⟩⟩
    · exact (exec_changes_digest hexec h).imp pending_of_pendingInstr
        (.imp pending_of_pendingInstr (.imp pending_of_pendingInstr pending_of_pendingInstr))
    · exact (exec_changes_code hexec h).imp pending_of_pendingInstr
        (.imp pending_of_pendingInstr (.imp pending_of_pendingInstr pending_of_pendingInstr))
    · rcases exec_changes_verdict hexec h with ⟨-, hi⟩ | ⟨hzero, -⟩
      · exact hi.imp pending_of_pendingInstr pending_of_pendingInstr
      · exact absurd hzero hne
    · rcases exec_changes_verdict hexec h with ⟨hne, -⟩ | ⟨-, hi⟩
      · exact absurd hzero hne
      · exact pending_of_pendingInstr hi

/-! ## A command in progress ends (R336) -/

/-- The command is over: completed, or abandoned by reset. -/
def CommandOver (t : State) : Prop :=
  t.block.busy = false ∧ (t.block.done = true ∨ (t.block = Block.reset ∧ t.resetAsserted = true))

/-- The engine's turn completes the command in progress. -/
theorem step_engineAt_commandOver {s : State} {turns : List Turn} (h : s.EngineAt turns) :
    ∃ t, step s = .next t ∧ CommandOver t := by
  have hexec := exec_eq (pendingInstr s.block) (s.withSchedule turns)
  exact ⟨_, (step_of_engineAt h).trans hexec, exec_busy hexec, .inl (exec_done hexec)⟩

/-- A scheduled turn over a command in progress ends it, or leaves it in progress with one turn less to come. -/
theorem step_turn_commandOver_or_busy {s : State} {turn : Turn} {turns : List Turn} (hb : s.block.busy = true)
    (hr : s.resetAsserted = false) (hs : s.schedule = turn :: turns) :
    ∃ t, step s = .next t
      ∧ (CommandOver t ∨ (t.block.busy = true ∧ t.resetAsserted = false ∧ t.schedule = turns)) := by
  cases turn with
  | host =>
    obtain ⟨t, hstep, hsched, hreset, hsame⟩ := step_host_turn_sameButFlags hb hs
    exact ⟨t, hstep, .inr ⟨hsame.busy.trans hb, hreset.trans hr, hsched⟩⟩
  | engine =>
    obtain ⟨t, hstep, hover⟩ := step_engineAt_commandOver ⟨hr, hb, .inl hs⟩
    exact ⟨t, hstep, .inl hover⟩
  | resetPin a =>
    refine ⟨_, step_of_resetPin hs, ?_⟩
    cases a with
    | true => exact .inl ⟨rfl, .inr ⟨rfl, rfl⟩⟩
    | false => exact .inr ⟨hb, rfl, rfl⟩

/-- Each step over a command in progress ends it or uses up a turn, and with no turn left the engine moves. -/
theorem stepsTo_commandOver (turns : List Turn) {s : State} (hb : s.block.busy = true) (hr : s.resetAsserted = false)
    (hs : s.schedule = turns) : ∃ k t, k ≤ turns.length + 1 ∧ StepsTo k s t ∧ CommandOver t := by
  induction turns generalizing s with
  | nil =>
    obtain ⟨t, hstep, hover⟩ := step_engineAt_commandOver ⟨hr, hb, .inr ⟨hs, rfl⟩⟩
    exact ⟨1, t, Nat.le_refl 1, ⟨t, hstep, rfl⟩, hover⟩
  | cons turn turns ih =>
    obtain ⟨u, hstep, hover | ⟨hub, hur, hus⟩⟩ := step_turn_commandOver_or_busy hb hr hs
    · exact ⟨1, u, by simp, ⟨u, hstep, rfl⟩, hover⟩
    · obtain ⟨k, t, hk, hsteps, hover⟩ := ih hub hur hus
      exact ⟨k + 1, t, Nat.succ_le_succ hk, ⟨u, hstep, hsteps⟩, hover⟩

/-- Settles O54, by induction on the schedule. -/
theorem issuedCommandCompletes : Obligations.IssuedCommandCompletes :=
  fun _ hb hr => stepsTo_commandOver _ hb hr rfl

end Sys2Proof.Machine
end
